-- ==== Sys2Proof/Word.lean ====
section
/-! DEFINITION. Word.lean: the word types of the machine (00_scope R9, R11). -/

namespace Sys2Proof

/-- One byte (20_memory R151). -/
abbrev Byte := BitVec 8

/-- One halfword: a Thumb instruction, an I/O granule, a pixel. -/
abbrev Half := BitVec 16

/-- One 32-bit register, address or ARM instruction (00_scope R9). -/
abbrev Word := BitVec 32

/-- A visible register number 0..15 (10_state R51, R52). -/
abbrev RegNum := BitVec 4

/-- A Thumb low register number 0..7 (45_thumb_alu R620). -/
abbrev LowReg := BitVec 3

end Sys2Proof
end

