-- ==== Sys2Proof/Config.lean ====
section
/-! DEFINITION. Config.lean: what the spec leaves to the implementation or to a draw (00_scope R10, R14).
Every constant here is opaque: it has no body, so no proof can lean on its value. -/

namespace Sys2Proof

/-- The two answers 47_compositor R703 allows for an inverted window rectangle. -/
inductive WindowGarbage where
  /-- The window spans from the first edge, around the end of the range, to the second edge. -/
  | wrap
  /-- The second edge is replaced by the end of the screen. -/
  | clampHigh
  deriving DecidableEq, Repr, Inhabited

/-- What adds cycles (10_state R69, 70_reset_and_hazards R951). -/
inductive CycleEvent where
  /-- The fetch of an instruction. -/
  | fetch
  /-- An instruction whose condition failed. -/
  | skipped
  /-- An executed instruction, its data accesses included. -/
  | executed
  /-- An exception entry taken at a boundary. -/
  | exceptionEntry
  /-- A memory access of a DMA transfer. -/
  | memoryAccess
  deriving DecidableEq, Repr

namespace Config

/-- BIOS_IMAGE (20_memory R160): the byte of the system ROM at an offset below 16384. Log 4. -/
opaque biosImage : Nat → Byte

/-- ROM_SIZE (20_memory R167): at most 0x02000000. Log 4. -/
opaque romSize : Fin 0x02000001

/-- ROM_IMAGE (20_memory R167): the cartridge byte at an offset below ROM_SIZE. Log 4. -/
opaque romImage : Nat → Byte

/-- SRAM_INIT (20_memory R168): the cartridge SRAM byte at an offset below 65536. Log 4. -/
opaque sramInit : Nat → Byte

/-- RESET_DRAW for memory (20_memory R199, 70_reset_and_hazards R921): the byte a RAM cell holds after the
n-th reset. First argument the reset counter, second the storage key. Log 4. -/
opaque resetByte : Nat → Nat → Byte

/-- OPEN_BUS (20_memory R170): a byte read from an unmapped address. First argument the draw counter,
second the address. Log 6. -/
opaque openBus : Nat → Nat → Byte

/-- A read of an environment-owned I/O register (20_memory R196). First argument the draw counter, second
the offset. Log 9. -/
opaque environmentRegister : Nat → Nat → Half

/-- C after a flag-setting multiply (42_arm_multiply_swap R457). The argument is the draw counter. Log 6. -/
opaque multiplyCarry : Nat → Bool

/-- V after a flag-setting long multiply (42_arm_multiply_swap R457). The argument is the draw counter. Log 6. -/
opaque multiplyOverflow : Nat → Bool

/-- Whether THUMB_IRQ_LR_OFFSET is 2; otherwise it is 4 (60_exceptions R876). Log 20. -/
opaque thumbIrqLrIsTwo : Bool

/-- WINDOW_GARBAGE (47_compositor R703). Log 20. -/
opaque windowGarbage : WindowGarbage

/-- A VRAM byte read past the end of the 98304-byte array by the sprite producer. First argument the draw
counter, second the offset. Log 17. -/
opaque vramOutside : Nat → Nat → Byte

/-- CYCLE_COST (70_reset_and_hazards R951): the cycles one event adds. The second argument is the draw
counter. Log 7. -/
opaque cycleCost : CycleEvent → Nat → Nat

/-- THUMB_IRQ_LR_OFFSET (60_exceptions R876), 2 or 4. -/
def thumbIrqLrOffset : Word := if thumbIrqLrIsTwo then 2#32 else 4#32

end Config
end Sys2Proof
end

