-- ==== Sys2Proof/Syntax.lean ====
section
/-! DEFINITION. Syntax.lean: the instructions, one constructor per row of opcode_table.json (30_encoding R333).
Should-be-zero and should-be-one fields are kept as operands: a word that violates them is refused only when its
condition passes (30_encoding R251, R252, R254, R333), so the instruction must remember them. -/

namespace Sys2Proof

/-- The 4-bit condition (40_shifter_alu R350). -/
inductive Cond where
  | eq | ne | cs | cc | mi | pl | vs | vc | hi | ls | ge | lt | gt | le | al | nv
  deriving DecidableEq, Repr

/-- The 2-bit shift type (30_encoding R256). -/
inductive ShiftKind where
  | lsl | lsr | asr | ror
  deriving DecidableEq, Repr

/-- The second operand of a data-processing instruction: formats A1, A2 and A3 (40_shifter_alu R355). -/
inductive Operand2 where
  /-- An 8-bit immediate rotated right by twice `rot` (40_shifter_alu R365). -/
  | imm (rot : BitVec 4) (imm8 : BitVec 8)
  /-- Rm shifted by an immediate amount (40_shifter_alu R356). -/
  | shiftImm (amount : BitVec 5) (kind : ShiftKind) (rm : RegNum)
  /-- Rm shifted by the low byte of Rs (40_shifter_alu R357). -/
  | shiftReg (rs : RegNum) (kind : ShiftKind) (rm : RegNum)
  deriving DecidableEq, Repr

/-- The instructions of both states. ARM instructions carry their condition first (30_encoding R251). -/
inductive Instr where
  /-- AND, format A1/A2/A3, 41_arm_dataproc R400. -/
  | armAnd (c : Cond) (setFlags : Bool) (rn : RegNum) (rd : RegNum) (op2 : Operand2)
  /-- EOR, format A1/A2/A3, 41_arm_dataproc R401. -/
  | armEor (c : Cond) (setFlags : Bool) (rn : RegNum) (rd : RegNum) (op2 : Operand2)
  /-- SUB, format A1/A2/A3, 41_arm_dataproc R402. -/
  | armSub (c : Cond) (setFlags : Bool) (rn : RegNum) (rd : RegNum) (op2 : Operand2)
  /-- RSB, format A1/A2/A3, 41_arm_dataproc R403. -/
  | armRsb (c : Cond) (setFlags : Bool) (rn : RegNum) (rd : RegNum) (op2 : Operand2)
  /-- ADD, format A1/A2/A3, 41_arm_dataproc R404. -/
  | armAdd (c : Cond) (setFlags : Bool) (rn : RegNum) (rd : RegNum) (op2 : Operand2)
  /-- ADC, format A1/A2/A3, 41_arm_dataproc R405. -/
  | armAdc (c : Cond) (setFlags : Bool) (rn : RegNum) (rd : RegNum) (op2 : Operand2)
  /-- SBC, format A1/A2/A3, 41_arm_dataproc R406. -/
  | armSbc (c : Cond) (setFlags : Bool) (rn : RegNum) (rd : RegNum) (op2 : Operand2)
  /-- RSC, format A1/A2/A3, 41_arm_dataproc R407. -/
  | armRsc (c : Cond) (setFlags : Bool) (rn : RegNum) (rd : RegNum) (op2 : Operand2)
  /-- TST, format A1/A2/A3, 41_arm_dataproc R410. -/
  | armTst (c : Cond) (rn : RegNum) (rd : RegNum) (op2 : Operand2)
  /-- TEQ, format A1/A2/A3, 41_arm_dataproc R411. -/
  | armTeq (c : Cond) (rn : RegNum) (rd : RegNum) (op2 : Operand2)
  /-- CMP, format A1/A2/A3, 41_arm_dataproc R412. -/
  | armCmp (c : Cond) (rn : RegNum) (rd : RegNum) (op2 : Operand2)
  /-- CMN, format A1/A2/A3, 41_arm_dataproc R413. -/
  | armCmn (c : Cond) (rn : RegNum) (rd : RegNum) (op2 : Operand2)
  /-- ORR, format A1/A2/A3, 41_arm_dataproc R414. -/
  | armOrr (c : Cond) (setFlags : Bool) (rn : RegNum) (rd : RegNum) (op2 : Operand2)
  /-- MOV, format A1/A2/A3, 41_arm_dataproc R415. -/
  | armMov (c : Cond) (setFlags : Bool) (rn : RegNum) (rd : RegNum) (op2 : Operand2)
  /-- BIC, format A1/A2/A3, 41_arm_dataproc R418. -/
  | armBic (c : Cond) (setFlags : Bool) (rn : RegNum) (rd : RegNum) (op2 : Operand2)
  /-- MVN, format A1/A2/A3, 41_arm_dataproc R419. -/
  | armMvn (c : Cond) (setFlags : Bool) (rn : RegNum) (rd : RegNum) (op2 : Operand2)
  /-- MRS, format A4, 41_arm_dataproc R416. -/
  | armMrs (c : Cond) (spsr : Bool) (sbo : BitVec 4) (rd : RegNum) (sbzHigh : BitVec 4) (sbzLow : BitVec 4)
  /-- MSR_reg, format A5, 41_arm_dataproc R417. -/
  | armMsrReg (c : Cond) (spsr : Bool) (mask : BitVec 4) (sbo : BitVec 4) (sbz : BitVec 4) (rm : RegNum)
  /-- MSR_imm, format A6, 41_arm_dataproc R417. -/
  | armMsrImm (c : Cond) (spsr : Bool) (mask : BitVec 4) (sbo : BitVec 4) (rot : BitVec 4) (imm8 : BitVec 8)
  /-- MUL, format A7, 42_arm_multiply_swap R450. -/
  | armMul (c : Cond) (setFlags : Bool) (rd : RegNum) (sbz : BitVec 4) (rs : RegNum) (rm : RegNum)
  /-- MLA, format A7, 42_arm_multiply_swap R451. -/
  | armMla (c : Cond) (setFlags : Bool) (rd : RegNum) (rn : RegNum) (rs : RegNum) (rm : RegNum)
  /-- UMULL, format A8, 42_arm_multiply_swap R452. -/
  | armUmull (c : Cond) (setFlags : Bool) (rdHi : RegNum) (rdLo : RegNum) (rs : RegNum) (rm : RegNum)
  /-- UMLAL, format A8, 42_arm_multiply_swap R453. -/
  | armUmlal (c : Cond) (setFlags : Bool) (rdHi : RegNum) (rdLo : RegNum) (rs : RegNum) (rm : RegNum)
  /-- SMULL, format A8, 42_arm_multiply_swap R454. -/
  | armSmull (c : Cond) (setFlags : Bool) (rdHi : RegNum) (rdLo : RegNum) (rs : RegNum) (rm : RegNum)
  /-- SMLAL, format A8, 42_arm_multiply_swap R455. -/
  | armSmlal (c : Cond) (setFlags : Bool) (rdHi : RegNum) (rdLo : RegNum) (rs : RegNum) (rm : RegNum)
  /-- SWP, format A9, 42_arm_multiply_swap R460. -/
  | armSwp (c : Cond) (rn : RegNum) (rd : RegNum) (sbz : BitVec 4) (rm : RegNum)
  /-- SWPB, format A9, 42_arm_multiply_swap R461. -/
  | armSwpb (c : Cond) (rn : RegNum) (rd : RegNum) (sbz : BitVec 4) (rm : RegNum)
  /-- STRH_reg, format A10, 43_arm_loadstore R492. -/
  | armStrhReg (c : Cond) (p : Bool) (u : Bool) (w : Bool) (rn : RegNum) (rd : RegNum) (sbz : BitVec 4) (rm : RegNum)
  /-- STRH_imm, format A11, 43_arm_loadstore R492. -/
  | armStrhImm (c : Cond) (p : Bool) (u : Bool) (w : Bool) (rn : RegNum) (rd : RegNum) (immH : BitVec 4) (immL : BitVec 4)
  /-- LDRH_reg, format A10, 43_arm_loadstore R491. -/
  | armLdrhReg (c : Cond) (p : Bool) (u : Bool) (w : Bool) (rn : RegNum) (rd : RegNum) (sbz : BitVec 4) (rm : RegNum)
  /-- LDRH_imm, format A11, 43_arm_loadstore R491. -/
  | armLdrhImm (c : Cond) (p : Bool) (u : Bool) (w : Bool) (rn : RegNum) (rd : RegNum) (immH : BitVec 4) (immL : BitVec 4)
  /-- LDRSB_reg, format A10, 43_arm_loadstore R493. -/
  | armLdrsbReg (c : Cond) (p : Bool) (u : Bool) (w : Bool) (rn : RegNum) (rd : RegNum) (sbz : BitVec 4) (rm : RegNum)
  /-- LDRSB_imm, format A11, 43_arm_loadstore R493. -/
  | armLdrsbImm (c : Cond) (p : Bool) (u : Bool) (w : Bool) (rn : RegNum) (rd : RegNum) (immH : BitVec 4) (immL : BitVec 4)
  /-- LDRSH_reg, format A10, 43_arm_loadstore R494. -/
  | armLdrshReg (c : Cond) (p : Bool) (u : Bool) (w : Bool) (rn : RegNum) (rd : RegNum) (sbz : BitVec 4) (rm : RegNum)
  /-- LDRSH_imm, format A11, 43_arm_loadstore R494. -/
  | armLdrshImm (c : Cond) (p : Bool) (u : Bool) (w : Bool) (rn : RegNum) (rd : RegNum) (immH : BitVec 4) (immL : BitVec 4)
  /-- STRH_dspace, format A10/A11, 30_encoding R252. -/
  | armStrhDspace (c : Cond) (puiw : BitVec 4) (mid : BitVec 12) (sh0 : Bool) (low : BitVec 4)
  /-- STR_imm_pre, format A12, 43_arm_loadstore R482. -/
  | armStrImmPre (c : Cond) (u : Bool) (w : Bool) (rn : RegNum) (rd : RegNum) (imm12 : BitVec 12)
  /-- STR_imm_post, format A12, 43_arm_loadstore R482. -/
  | armStrImmPost (c : Cond) (u : Bool) (rn : RegNum) (rd : RegNum) (imm12 : BitVec 12)
  /-- STRT_imm, format A12, 43_arm_loadstore R487. -/
  | armStrtImm (c : Cond) (u : Bool) (rn : RegNum) (rd : RegNum) (imm12 : BitVec 12)
  /-- STR_reg_pre, format A13, 43_arm_loadstore R482. -/
  | armStrRegPre (c : Cond) (u : Bool) (w : Bool) (rn : RegNum) (rd : RegNum) (amount : BitVec 5) (kind : ShiftKind) (rm : RegNum)
  /-- STR_reg_post, format A13, 43_arm_loadstore R482. -/
  | armStrRegPost (c : Cond) (u : Bool) (rn : RegNum) (rd : RegNum) (amount : BitVec 5) (kind : ShiftKind) (rm : RegNum)
  /-- STRT_reg, format A13, 43_arm_loadstore R487. -/
  | armStrtReg (c : Cond) (u : Bool) (rn : RegNum) (rd : RegNum) (amount : BitVec 5) (kind : ShiftKind) (rm : RegNum)
  /-- LDR_imm_pre, format A12, 43_arm_loadstore R481. -/
  | armLdrImmPre (c : Cond) (u : Bool) (w : Bool) (rn : RegNum) (rd : RegNum) (imm12 : BitVec 12)
  /-- LDR_imm_post, format A12, 43_arm_loadstore R481. -/
  | armLdrImmPost (c : Cond) (u : Bool) (rn : RegNum) (rd : RegNum) (imm12 : BitVec 12)
  /-- LDRT_imm, format A12, 43_arm_loadstore R486. -/
  | armLdrtImm (c : Cond) (u : Bool) (rn : RegNum) (rd : RegNum) (imm12 : BitVec 12)
  /-- LDR_reg_pre, format A13, 43_arm_loadstore R481. -/
  | armLdrRegPre (c : Cond) (u : Bool) (w : Bool) (rn : RegNum) (rd : RegNum) (amount : BitVec 5) (kind : ShiftKind) (rm : RegNum)
  /-- LDR_reg_post, format A13, 43_arm_loadstore R481. -/
  | armLdrRegPost (c : Cond) (u : Bool) (rn : RegNum) (rd : RegNum) (amount : BitVec 5) (kind : ShiftKind) (rm : RegNum)
  /-- LDRT_reg, format A13, 43_arm_loadstore R486. -/
  | armLdrtReg (c : Cond) (u : Bool) (rn : RegNum) (rd : RegNum) (amount : BitVec 5) (kind : ShiftKind) (rm : RegNum)
  /-- STRB_imm_pre, format A12, 43_arm_loadstore R485. -/
  | armStrbImmPre (c : Cond) (u : Bool) (w : Bool) (rn : RegNum) (rd : RegNum) (imm12 : BitVec 12)
  /-- STRB_imm_post, format A12, 43_arm_loadstore R485. -/
  | armStrbImmPost (c : Cond) (u : Bool) (rn : RegNum) (rd : RegNum) (imm12 : BitVec 12)
  /-- STRBT_imm, format A12, 43_arm_loadstore R487. -/
  | armStrbtImm (c : Cond) (u : Bool) (rn : RegNum) (rd : RegNum) (imm12 : BitVec 12)
  /-- STRB_reg_pre, format A13, 43_arm_loadstore R485. -/
  | armStrbRegPre (c : Cond) (u : Bool) (w : Bool) (rn : RegNum) (rd : RegNum) (amount : BitVec 5) (kind : ShiftKind) (rm : RegNum)
  /-- STRB_reg_post, format A13, 43_arm_loadstore R485. -/
  | armStrbRegPost (c : Cond) (u : Bool) (rn : RegNum) (rd : RegNum) (amount : BitVec 5) (kind : ShiftKind) (rm : RegNum)
  /-- STRBT_reg, format A13, 43_arm_loadstore R487. -/
  | armStrbtReg (c : Cond) (u : Bool) (rn : RegNum) (rd : RegNum) (amount : BitVec 5) (kind : ShiftKind) (rm : RegNum)
  /-- LDRB_imm_pre, format A12, 43_arm_loadstore R484. -/
  | armLdrbImmPre (c : Cond) (u : Bool) (w : Bool) (rn : RegNum) (rd : RegNum) (imm12 : BitVec 12)
  /-- LDRB_imm_post, format A12, 43_arm_loadstore R484. -/
  | armLdrbImmPost (c : Cond) (u : Bool) (rn : RegNum) (rd : RegNum) (imm12 : BitVec 12)
  /-- LDRBT_imm, format A12, 43_arm_loadstore R486. -/
  | armLdrbtImm (c : Cond) (u : Bool) (rn : RegNum) (rd : RegNum) (imm12 : BitVec 12)
  /-- LDRB_reg_pre, format A13, 43_arm_loadstore R484. -/
  | armLdrbRegPre (c : Cond) (u : Bool) (w : Bool) (rn : RegNum) (rd : RegNum) (amount : BitVec 5) (kind : ShiftKind) (rm : RegNum)
  /-- LDRB_reg_post, format A13, 43_arm_loadstore R484. -/
  | armLdrbRegPost (c : Cond) (u : Bool) (rn : RegNum) (rd : RegNum) (amount : BitVec 5) (kind : ShiftKind) (rm : RegNum)
  /-- LDRBT_reg, format A13, 43_arm_loadstore R486. -/
  | armLdrbtReg (c : Cond) (u : Bool) (rn : RegNum) (rd : RegNum) (amount : BitVec 5) (kind : ShiftKind) (rm : RegNum)
  /-- STM, format A15, 43_arm_loadstore R516. -/
  | armStm (c : Cond) (p : Bool) (u : Bool) (w : Bool) (rn : RegNum) (rlist : BitVec 16)
  /-- STM_user, format A15, 43_arm_loadstore R516, R511. -/
  | armStmUser (c : Cond) (p : Bool) (u : Bool) (w : Bool) (rn : RegNum) (rlist : BitVec 16)
  /-- LDM, format A15, 43_arm_loadstore R515. -/
  | armLdm (c : Cond) (p : Bool) (u : Bool) (w : Bool) (rn : RegNum) (rlist : BitVec 16)
  /-- LDM_user, format A15, 43_arm_loadstore R515, R511, R513. -/
  | armLdmUser (c : Cond) (p : Bool) (u : Bool) (w : Bool) (rn : RegNum) (rlist : BitVec 16)
  /-- B, format A16, 44_arm_branch_system R550. -/
  | armB (c : Cond) (off24 : BitVec 24)
  /-- BL, format A16, 44_arm_branch_system R551. -/
  | armBl (c : Cond) (off24 : BitVec 24)
  /-- BX, format A17, 44_arm_branch_system R552. -/
  | armBx (c : Cond) (sbo : BitVec 12) (rm : RegNum)
  /-- SWI, format A21, 44_arm_branch_system R553. -/
  | armSwi (c : Cond) (comment24 : BitVec 24)
  /-- UNDEF_A14, format A14, 44_arm_branch_system R560. -/
  | armUndefA14 (c : Cond) (high : BitVec 20) (low : BitVec 4)
  /-- UNDEF_mulspace, format A10, 44_arm_branch_system R560. -/
  | armUndefMulspace (c : Cond) (high : BitVec 5) (mid : BitVec 12) (low : BitVec 4)
  /-- UNDEF_misc, format A2/A3, 44_arm_branch_system R560. -/
  | armUndefMisc (c : Cond) (imm : Bool) (op : BitVec 2) (rest : BitVec 20)
  /-- LDC, format A18, 44_arm_branch_system R561. -/
  | armLdc (c : Cond) (p : Bool) (u : Bool) (n : Bool) (w : Bool) (rn : RegNum) (crd : BitVec 4) (cpNum : BitVec 4) (off8 : BitVec 8)
  /-- STC, format A18, 44_arm_branch_system R561. -/
  | armStc (c : Cond) (p : Bool) (u : Bool) (n : Bool) (w : Bool) (rn : RegNum) (crd : BitVec 4) (cpNum : BitVec 4) (off8 : BitVec 8)
  /-- CDP, format A19, 44_arm_branch_system R561. -/
  | armCdp (c : Cond) (op1 : BitVec 4) (crn : BitVec 4) (crd : BitVec 4) (cpNum : BitVec 4) (op2 : BitVec 3) (crm : BitVec 4)
  /-- MCR, format A20, 44_arm_branch_system R561. -/
  | armMcr (c : Cond) (op1 : BitVec 3) (crn : BitVec 4) (rd : RegNum) (cpNum : BitVec 4) (op2 : BitVec 3) (crm : BitVec 4)
  /-- MRC, format A20, 44_arm_branch_system R561. -/
  | armMrc (c : Cond) (op1 : BitVec 3) (crn : BitVec 4) (rd : RegNum) (cpNum : BitVec 4) (op2 : BitVec 3) (crm : BitVec 4)
  /-- T_LSL_imm, format T1, 45_thumb_alu R580. -/
  | thumbLslImm (off5 : BitVec 5) (rs : LowReg) (rd : LowReg)
  /-- T_LSR_imm, format T1, 45_thumb_alu R581. -/
  | thumbLsrImm (off5 : BitVec 5) (rs : LowReg) (rd : LowReg)
  /-- T_ASR_imm, format T1, 45_thumb_alu R582. -/
  | thumbAsrImm (off5 : BitVec 5) (rs : LowReg) (rd : LowReg)
  /-- T_ADD_reg, format T2, 45_thumb_alu R583. -/
  | thumbAddReg (rn : LowReg) (rs : LowReg) (rd : LowReg)
  /-- T_SUB_reg, format T2, 45_thumb_alu R584. -/
  | thumbSubReg (rn : LowReg) (rs : LowReg) (rd : LowReg)
  /-- T_ADD_imm3, format T2, 45_thumb_alu R585. -/
  | thumbAddImm3 (off3 : BitVec 3) (rs : LowReg) (rd : LowReg)
  /-- T_SUB_imm3, format T2, 45_thumb_alu R586. -/
  | thumbSubImm3 (off3 : BitVec 3) (rs : LowReg) (rd : LowReg)
  /-- T_MOV_imm, format T3, 45_thumb_alu R587. -/
  | thumbMovImm (rd : LowReg) (off8 : BitVec 8)
  /-- T_CMP_imm, format T3, 45_thumb_alu R588. -/
  | thumbCmpImm (rd : LowReg) (off8 : BitVec 8)
  /-- T_ADD_imm8, format T3, 45_thumb_alu R589. -/
  | thumbAddImm8 (rd : LowReg) (off8 : BitVec 8)
  /-- T_SUB_imm8, format T3, 45_thumb_alu R590. -/
  | thumbSubImm8 (rd : LowReg) (off8 : BitVec 8)
  /-- T_AND, format T4, 45_thumb_alu R591. -/
  | thumbAnd (rs : LowReg) (rd : LowReg)
  /-- T_EOR, format T4, 45_thumb_alu R592. -/
  | thumbEor (rs : LowReg) (rd : LowReg)
  /-- T_LSL_reg, format T4, 45_thumb_alu R593. -/
  | thumbLslReg (rs : LowReg) (rd : LowReg)
  /-- T_LSR_reg, format T4, 45_thumb_alu R594. -/
  | thumbLsrReg (rs : LowReg) (rd : LowReg)
  /-- T_ASR_reg, format T4, 45_thumb_alu R595. -/
  | thumbAsrReg (rs : LowReg) (rd : LowReg)
  /-- T_ADC, format T4, 45_thumb_alu R596. -/
  | thumbAdc (rs : LowReg) (rd : LowReg)
  /-- T_SBC, format T4, 45_thumb_alu R597. -/
  | thumbSbc (rs : LowReg) (rd : LowReg)
  /-- T_ROR_reg, format T4, 45_thumb_alu R598. -/
  | thumbRorReg (rs : LowReg) (rd : LowReg)
  /-- T_TST, format T4, 45_thumb_alu R599. -/
  | thumbTst (rs : LowReg) (rd : LowReg)
  /-- T_NEG, format T4, 45_thumb_alu R600. -/
  | thumbNeg (rs : LowReg) (rd : LowReg)
  /-- T_CMP_reg, format T4, 45_thumb_alu R601. -/
  | thumbCmpReg (rs : LowReg) (rd : LowReg)
  /-- T_CMN, format T4, 45_thumb_alu R602. -/
  | thumbCmn (rs : LowReg) (rd : LowReg)
  /-- T_ORR, format T4, 45_thumb_alu R608. -/
  | thumbOrr (rs : LowReg) (rd : LowReg)
  /-- T_MUL, format T4, 45_thumb_alu R609. -/
  | thumbMul (rs : LowReg) (rd : LowReg)
  /-- T_BIC, format T4, 45_thumb_alu R613. -/
  | thumbBic (rs : LowReg) (rd : LowReg)
  /-- T_MVN, format T4, 45_thumb_alu R614. -/
  | thumbMvn (rs : LowReg) (rd : LowReg)
  /-- T_ADD_hi, format T5, 45_thumb_alu R603. -/
  | thumbAddHi (s : RegNum) (d : RegNum)
  /-- T_CMP_hi, format T5, 45_thumb_alu R604. -/
  | thumbCmpHi (s : RegNum) (d : RegNum)
  /-- T_MOV_hi, format T5, 45_thumb_alu R605. -/
  | thumbMovHi (s : RegNum) (d : RegNum)
  /-- T_BX, format T5, 45_thumb_alu R607. -/
  | thumbBx (h1 : Bool) (s : RegNum) (sbz : BitVec 3)
  /-- T_LDR_pc, format T6, 46_thumb_mem_branch R640. -/
  | thumbLdrPc (rd : LowReg) (word8 : BitVec 8)
  /-- T_STR_reg, format T7, 46_thumb_mem_branch R641. -/
  | thumbStrReg (ro : LowReg) (rb : LowReg) (rd : LowReg)
  /-- T_STRH_reg, format T8, 46_thumb_mem_branch R645. -/
  | thumbStrhReg (ro : LowReg) (rb : LowReg) (rd : LowReg)
  /-- T_STRB_reg, format T7, 46_thumb_mem_branch R642. -/
  | thumbStrbReg (ro : LowReg) (rb : LowReg) (rd : LowReg)
  /-- T_LDSB_reg, format T8, 46_thumb_mem_branch R646. -/
  | thumbLdsbReg (ro : LowReg) (rb : LowReg) (rd : LowReg)
  /-- T_LDR_reg, format T7, 46_thumb_mem_branch R643. -/
  | thumbLdrReg (ro : LowReg) (rb : LowReg) (rd : LowReg)
  /-- T_LDRH_reg, format T8, 46_thumb_mem_branch R647. -/
  | thumbLdrhReg (ro : LowReg) (rb : LowReg) (rd : LowReg)
  /-- T_LDRB_reg, format T7, 46_thumb_mem_branch R644. -/
  | thumbLdrbReg (ro : LowReg) (rb : LowReg) (rd : LowReg)
  /-- T_LDSH_reg, format T8, 46_thumb_mem_branch R648. -/
  | thumbLdshReg (ro : LowReg) (rb : LowReg) (rd : LowReg)
  /-- T_STR_imm, format T9, 46_thumb_mem_branch R649. -/
  | thumbStrImm (off5 : BitVec 5) (rb : LowReg) (rd : LowReg)
  /-- T_LDR_imm, format T9, 46_thumb_mem_branch R650. -/
  | thumbLdrImm (off5 : BitVec 5) (rb : LowReg) (rd : LowReg)
  /-- T_STRB_imm, format T9, 46_thumb_mem_branch R651. -/
  | thumbStrbImm (off5 : BitVec 5) (rb : LowReg) (rd : LowReg)
  /-- T_LDRB_imm, format T9, 46_thumb_mem_branch R652. -/
  | thumbLdrbImm (off5 : BitVec 5) (rb : LowReg) (rd : LowReg)
  /-- T_STRH_imm, format T10, 46_thumb_mem_branch R653. -/
  | thumbStrhImm (off5 : BitVec 5) (rb : LowReg) (rd : LowReg)
  /-- T_LDRH_imm, format T10, 46_thumb_mem_branch R654. -/
  | thumbLdrhImm (off5 : BitVec 5) (rb : LowReg) (rd : LowReg)
  /-- T_STR_sp, format T11, 46_thumb_mem_branch R655. -/
  | thumbStrSp (rd : LowReg) (word8 : BitVec 8)
  /-- T_LDR_sp, format T11, 46_thumb_mem_branch R656. -/
  | thumbLdrSp (rd : LowReg) (word8 : BitVec 8)
  /-- T_ADD_pc, format T12, 45_thumb_alu R610. -/
  | thumbAddPc (rd : LowReg) (word8 : BitVec 8)
  /-- T_ADD_sp, format T12, 45_thumb_alu R611. -/
  | thumbAddSp (rd : LowReg) (word8 : BitVec 8)
  /-- T_ADD_sp_imm, format T13, 45_thumb_alu R612. -/
  | thumbAddSpImm (sword7 : BitVec 7)
  /-- T_SUB_sp_imm, format T13, 45_thumb_alu R615. -/
  | thumbSubSpImm (sword7 : BitVec 7)
  /-- T_PUSH, format T14, 46_thumb_mem_branch R657. -/
  | thumbPush (rlist : BitVec 8)
  /-- T_PUSH_lr, format T14, 46_thumb_mem_branch R658. -/
  | thumbPushLr (rlist : BitVec 8)
  /-- T_POP, format T14, 46_thumb_mem_branch R659. -/
  | thumbPop (rlist : BitVec 8)
  /-- T_POP_pc, format T14, 46_thumb_mem_branch R660. -/
  | thumbPopPc (rlist : BitVec 8)
  /-- T_STMIA, format T15, 46_thumb_mem_branch R661. -/
  | thumbStmia (rb : LowReg) (rlist : BitVec 8)
  /-- T_LDMIA, format T15, 46_thumb_mem_branch R662. -/
  | thumbLdmia (rb : LowReg) (rlist : BitVec 8)
  /-- T_Bcond, format T16, 46_thumb_mem_branch R670, condition EQ. -/
  | thumbBeq (soff8 : BitVec 8)
  /-- T_Bcond, format T16, 46_thumb_mem_branch R670, condition NE. -/
  | thumbBne (soff8 : BitVec 8)
  /-- T_Bcond, format T16, 46_thumb_mem_branch R670, condition CS. -/
  | thumbBcs (soff8 : BitVec 8)
  /-- T_Bcond, format T16, 46_thumb_mem_branch R670, condition CC. -/
  | thumbBcc (soff8 : BitVec 8)
  /-- T_Bcond, format T16, 46_thumb_mem_branch R670, condition MI. -/
  | thumbBmi (soff8 : BitVec 8)
  /-- T_Bcond, format T16, 46_thumb_mem_branch R670, condition PL. -/
  | thumbBpl (soff8 : BitVec 8)
  /-- T_Bcond, format T16, 46_thumb_mem_branch R670, condition VS. -/
  | thumbBvs (soff8 : BitVec 8)
  /-- T_Bcond, format T16, 46_thumb_mem_branch R670, condition VC. -/
  | thumbBvc (soff8 : BitVec 8)
  /-- T_Bcond, format T16, 46_thumb_mem_branch R670, condition HI. -/
  | thumbBhi (soff8 : BitVec 8)
  /-- T_Bcond, format T16, 46_thumb_mem_branch R670, condition LS. -/
  | thumbBls (soff8 : BitVec 8)
  /-- T_Bcond, format T16, 46_thumb_mem_branch R670, condition GE. -/
  | thumbBge (soff8 : BitVec 8)
  /-- T_Bcond, format T16, 46_thumb_mem_branch R670, condition LT. -/
  | thumbBlt (soff8 : BitVec 8)
  /-- T_Bcond, format T16, 46_thumb_mem_branch R670, condition GT. -/
  | thumbBgt (soff8 : BitVec 8)
  /-- T_Bcond, format T16, 46_thumb_mem_branch R670, condition LE. -/
  | thumbBle (soff8 : BitVec 8)
  /-- T_UNDEF, format T16, 46_thumb_mem_branch R690: cond 1110 in format T16. -/
  | thumbUndefCond (low : BitVec 8)
  /-- T_SWI, format T17, 46_thumb_mem_branch R671. -/
  | thumbSwi (value8 : BitVec 8)
  /-- T_B, format T18, 46_thumb_mem_branch R672. -/
  | thumbB (off11 : BitVec 11)
  /-- T_UNDEF, format T18, 46_thumb_mem_branch R690: h[15:11] = 11101. -/
  | thumbUndefLong (low : BitVec 11)
  /-- T_BL_hi, format T19, 46_thumb_mem_branch R680. -/
  | thumbBlHi (off11 : BitVec 11)
  /-- T_BL_lo, format T19, 46_thumb_mem_branch R681. -/
  | thumbBlLo (off11 : BitVec 11)
  /-- T_UNDEF, format T13/T14, 46_thumb_mem_branch R690: h[15:12] = 1011 and neither T13 nor T14. -/
  | thumbUndefMisc (op : BitVec 4) (low : BitVec 8)
  deriving DecidableEq, Repr

end Sys2Proof
end

