-- ==== Sys2Proof/WellFormed.lean ====
section
/-! DEFINITION. WellFormed.lean: which terms of Instr are instructions of their own row.
Every operand value is legal as syntax; the exceptions are the three Undefined rows whose raw bits could also spell
another row (30_encoding R252 lines 1 to 6, R291). -/

namespace Sys2Proof

/-- Raw bits 24..20 of a word with w[27:25] = 000 and w[7:4] = 1001 that is no multiply, long multiply or swap
(30_encoding R252 lines 2 to 5). -/
def mulspaceUndefined (high : BitVec 5) : Bool :=
  !(high.extractLsb' 2 3 == 0b000#3) && !(high.extractLsb' 3 2 == 0b01#2) &&
  !(high.extractLsb' 3 2 == 0b10#2 && high.extractLsb' 0 2 == 0b00#2)

/-- Raw bits of a word with w[27:26] = 00, w[24:23] = 10 and w[20] = 0 that is no BX, no multiply or halfword
space, no MRS and no MSR (30_encoding R252 lines 1, 4, 5 and 6). `op` is w[22:21] and `rest` is w[19:0]. -/
def miscUndefined (imm : Bool) (op : BitVec 2) (rest : BitVec 20) : Bool :=
  if imm then !op.getLsbD 0
  else
    !(rest.extractLsb' 4 4 == 0b0000#4) &&
    !(op == 0b01#2 && rest.extractLsb' 4 4 == 0b0001#4) &&
    !(rest.getLsbD 7 && rest.getLsbD 4)

/-- h[11:8] of a halfword with h[15:12] = 1011 that is neither T13 nor T14 (30_encoding R291, R295). -/
def thumbMiscUndefined (op : BitVec 4) : Bool :=
  op != 0x0#4 && op != 0x4#4 && op != 0x5#4 && op != 0xC#4 && op != 0xD#4

/-- The term is an instruction of its own row of opcode_table.json. -/
def WellFormed (i : Instr) : Bool :=
  match i with
  | .armUndefMulspace _ high _ _ => mulspaceUndefined high
  | .armUndefMisc _ imm op rest => miscUndefined imm op rest
  | .thumbUndefMisc op _ => thumbMiscUndefined op
  | .armAnd _ _ _ _ _ => true
  | .armEor _ _ _ _ _ => true
  | .armSub _ _ _ _ _ => true
  | .armRsb _ _ _ _ _ => true
  | .armAdd _ _ _ _ _ => true
  | .armAdc _ _ _ _ _ => true
  | .armSbc _ _ _ _ _ => true
  | .armRsc _ _ _ _ _ => true
  | .armTst _ _ _ _ => true
  | .armTeq _ _ _ _ => true
  | .armCmp _ _ _ _ => true
  | .armCmn _ _ _ _ => true
  | .armOrr _ _ _ _ _ => true
  | .armMov _ _ _ _ _ => true
  | .armBic _ _ _ _ _ => true
  | .armMvn _ _ _ _ _ => true
  | .armMrs _ _ _ _ _ _ => true
  | .armMsrReg _ _ _ _ _ _ => true
  | .armMsrImm _ _ _ _ _ _ => true
  | .armMul _ _ _ _ _ _ => true
  | .armMla _ _ _ _ _ _ => true
  | .armUmull _ _ _ _ _ _ => true
  | .armUmlal _ _ _ _ _ _ => true
  | .armSmull _ _ _ _ _ _ => true
  | .armSmlal _ _ _ _ _ _ => true
  | .armSwp _ _ _ _ _ => true
  | .armSwpb _ _ _ _ _ => true
  | .armStrhReg _ _ _ _ _ _ _ _ => true
  | .armStrhImm _ _ _ _ _ _ _ _ => true
  | .armLdrhReg _ _ _ _ _ _ _ _ => true
  | .armLdrhImm _ _ _ _ _ _ _ _ => true
  | .armLdrsbReg _ _ _ _ _ _ _ _ => true
  | .armLdrsbImm _ _ _ _ _ _ _ _ => true
  | .armLdrshReg _ _ _ _ _ _ _ _ => true
  | .armLdrshImm _ _ _ _ _ _ _ _ => true
  | .armStrhDspace _ _ _ _ _ => true
  | .armStrImmPre _ _ _ _ _ _ => true
  | .armStrImmPost _ _ _ _ _ => true
  | .armStrtImm _ _ _ _ _ => true
  | .armStrRegPre _ _ _ _ _ _ _ _ => true
  | .armStrRegPost _ _ _ _ _ _ _ => true
  | .armStrtReg _ _ _ _ _ _ _ => true
  | .armLdrImmPre _ _ _ _ _ _ => true
  | .armLdrImmPost _ _ _ _ _ => true
  | .armLdrtImm _ _ _ _ _ => true
  | .armLdrRegPre _ _ _ _ _ _ _ _ => true
  | .armLdrRegPost _ _ _ _ _ _ _ => true
  | .armLdrtReg _ _ _ _ _ _ _ => true
  | .armStrbImmPre _ _ _ _ _ _ => true
  | .armStrbImmPost _ _ _ _ _ => true
  | .armStrbtImm _ _ _ _ _ => true
  | .armStrbRegPre _ _ _ _ _ _ _ _ => true
  | .armStrbRegPost _ _ _ _ _ _ _ => true
  | .armStrbtReg _ _ _ _ _ _ _ => true
  | .armLdrbImmPre _ _ _ _ _ _ => true
  | .armLdrbImmPost _ _ _ _ _ => true
  | .armLdrbtImm _ _ _ _ _ => true
  | .armLdrbRegPre _ _ _ _ _ _ _ _ => true
  | .armLdrbRegPost _ _ _ _ _ _ _ => true
  | .armLdrbtReg _ _ _ _ _ _ _ => true
  | .armStm _ _ _ _ _ _ => true
  | .armStmUser _ _ _ _ _ _ => true
  | .armLdm _ _ _ _ _ _ => true
  | .armLdmUser _ _ _ _ _ _ => true
  | .armB _ _ => true
  | .armBl _ _ => true
  | .armBx _ _ _ => true
  | .armSwi _ _ => true
  | .armUndefA14 _ _ _ => true
  | .armLdc _ _ _ _ _ _ _ _ _ => true
  | .armStc _ _ _ _ _ _ _ _ _ => true
  | .armCdp _ _ _ _ _ _ _ => true
  | .armMcr _ _ _ _ _ _ _ => true
  | .armMrc _ _ _ _ _ _ _ => true
  | .thumbLslImm _ _ _ => true
  | .thumbLsrImm _ _ _ => true
  | .thumbAsrImm _ _ _ => true
  | .thumbAddReg _ _ _ => true
  | .thumbSubReg _ _ _ => true
  | .thumbAddImm3 _ _ _ => true
  | .thumbSubImm3 _ _ _ => true
  | .thumbMovImm _ _ => true
  | .thumbCmpImm _ _ => true
  | .thumbAddImm8 _ _ => true
  | .thumbSubImm8 _ _ => true
  | .thumbAnd _ _ => true
  | .thumbEor _ _ => true
  | .thumbLslReg _ _ => true
  | .thumbLsrReg _ _ => true
  | .thumbAsrReg _ _ => true
  | .thumbAdc _ _ => true
  | .thumbSbc _ _ => true
  | .thumbRorReg _ _ => true
  | .thumbTst _ _ => true
  | .thumbNeg _ _ => true
  | .thumbCmpReg _ _ => true
  | .thumbCmn _ _ => true
  | .thumbOrr _ _ => true
  | .thumbMul _ _ => true
  | .thumbBic _ _ => true
  | .thumbMvn _ _ => true
  | .thumbAddHi _ _ => true
  | .thumbCmpHi _ _ => true
  | .thumbMovHi _ _ => true
  | .thumbBx _ _ _ => true
  | .thumbLdrPc _ _ => true
  | .thumbStrReg _ _ _ => true
  | .thumbStrhReg _ _ _ => true
  | .thumbStrbReg _ _ _ => true
  | .thumbLdsbReg _ _ _ => true
  | .thumbLdrReg _ _ _ => true
  | .thumbLdrhReg _ _ _ => true
  | .thumbLdrbReg _ _ _ => true
  | .thumbLdshReg _ _ _ => true
  | .thumbStrImm _ _ _ => true
  | .thumbLdrImm _ _ _ => true
  | .thumbStrbImm _ _ _ => true
  | .thumbLdrbImm _ _ _ => true
  | .thumbStrhImm _ _ _ => true
  | .thumbLdrhImm _ _ _ => true
  | .thumbStrSp _ _ => true
  | .thumbLdrSp _ _ => true
  | .thumbAddPc _ _ => true
  | .thumbAddSp _ _ => true
  | .thumbAddSpImm _ => true
  | .thumbSubSpImm _ => true
  | .thumbPush _ => true
  | .thumbPushLr _ => true
  | .thumbPop _ => true
  | .thumbPopPc _ => true
  | .thumbStmia _ _ => true
  | .thumbLdmia _ _ => true
  | .thumbBeq _ => true
  | .thumbBne _ => true
  | .thumbBcs _ => true
  | .thumbBcc _ => true
  | .thumbBmi _ => true
  | .thumbBpl _ => true
  | .thumbBvs _ => true
  | .thumbBvc _ => true
  | .thumbBhi _ => true
  | .thumbBls _ => true
  | .thumbBge _ => true
  | .thumbBlt _ => true
  | .thumbBgt _ => true
  | .thumbBle _ => true
  | .thumbUndefCond _ => true
  | .thumbSwi _ => true
  | .thumbB _ => true
  | .thumbUndefLong _ => true
  | .thumbBlHi _ => true
  | .thumbBlLo _ => true

end Sys2Proof
end

