-- ==== Sys2Proof/Decode.lean ====
section
/-! DEFINITION. Decode.lean: decoding (30_encoding R252, R291) and encoding (R253, R292), written from the same
tables. The decoder is total on words: every 32-bit word and every 16-bit halfword is some instruction. -/

namespace Sys2Proof

/-! ### Fields shared by both directions -/

/-- The condition a 4-bit field names (40_shifter_alu R350). -/
def Cond.ofBits (b : BitVec 4) : Cond :=
  match b.getLsbD 3, b.getLsbD 2, b.getLsbD 1, b.getLsbD 0 with
  | false, false, false, false => .eq
  | false, false, false, true => .ne
  | false, false, true, false => .cs
  | false, false, true, true => .cc
  | false, true, false, false => .mi
  | false, true, false, true => .pl
  | false, true, true, false => .vs
  | false, true, true, true => .vc
  | true, false, false, false => .hi
  | true, false, false, true => .ls
  | true, false, true, false => .ge
  | true, false, true, true => .lt
  | true, true, false, false => .gt
  | true, true, false, true => .le
  | true, true, true, false => .al
  | true, true, true, true => .nv

/-- The 4-bit field of a condition (40_shifter_alu R350). -/
def Cond.toBits : Cond → BitVec 4
  | .eq => 0#4
  | .ne => 1#4
  | .cs => 2#4
  | .cc => 3#4
  | .mi => 4#4
  | .pl => 5#4
  | .vs => 6#4
  | .vc => 7#4
  | .hi => 8#4
  | .ls => 9#4
  | .ge => 10#4
  | .lt => 11#4
  | .gt => 12#4
  | .le => 13#4
  | .al => 14#4
  | .nv => 15#4

/-- The shift type a 2-bit field names (30_encoding R256). -/
def ShiftKind.ofBits (b : BitVec 2) : ShiftKind :=
  match b.getLsbD 1, b.getLsbD 0 with
  | false, false => .lsl
  | false, true => .lsr
  | true, false => .asr
  | true, true => .ror

/-- The 2-bit field of a shift type (30_encoding R256). -/
def ShiftKind.toBits : ShiftKind → BitVec 2
  | .lsl => 0#2
  | .lsr => 1#2
  | .asr => 2#2
  | .ror => 3#2

/-! ### Decoding ARM words (30_encoding R252) -/

/-- w[7:4] = 1001, the multiply and swap space. -/
def mulNibble (w : Word) : Bool := w.getLsbD 7 && !w.getLsbD 6 && !w.getLsbD 5 && w.getLsbD 4

/-- w[7:4] = 0000. -/
def zeroNibble (w : Word) : Bool := !w.getLsbD 7 && !w.getLsbD 6 && !w.getLsbD 5 && !w.getLsbD 4

/-- w[27:20] = 00010010 and w[7:4] = 0001: the index of BX, whatever w[19:8] (R252 line 1, R254). Log 16. -/
def isBxIndex (w : Word) : Bool :=
  !w.getLsbD 27 && !w.getLsbD 26 && !w.getLsbD 25 && w.getLsbD 24 && !w.getLsbD 23 && !w.getLsbD 22 &&
  w.getLsbD 21 && !w.getLsbD 20 && !w.getLsbD 7 && !w.getLsbD 6 && !w.getLsbD 5 && w.getLsbD 4

/-- w[27:22] = 000000 and w[7:4] = 1001 (R252 line 2). -/
def isMultiply (w : Word) : Bool :=
  !w.getLsbD 27 && !w.getLsbD 26 && !w.getLsbD 25 && !w.getLsbD 24 && !w.getLsbD 23 && !w.getLsbD 22 && mulNibble w

/-- w[27:23] = 00001 and w[7:4] = 1001 (R252 line 3). -/
def isMultiplyLong (w : Word) : Bool :=
  !w.getLsbD 27 && !w.getLsbD 26 && !w.getLsbD 25 && !w.getLsbD 24 && w.getLsbD 23 && mulNibble w

/-- w[27:23] = 00010, w[21:20] = 00 and w[7:4] = 1001 (R252 line 4). -/
def isSwap (w : Word) : Bool :=
  !w.getLsbD 27 && !w.getLsbD 26 && !w.getLsbD 25 && w.getLsbD 24 && !w.getLsbD 23 && !w.getLsbD 21 &&
  !w.getLsbD 20 && mulNibble w

/-- w[27:25] = 000, w[7] = 1 and w[4] = 1 (R252 line 5). -/
def isHalfwordSpace (w : Word) : Bool :=
  !w.getLsbD 27 && !w.getLsbD 26 && !w.getLsbD 25 && w.getLsbD 7 && w.getLsbD 4

/-- w[27:26] = 00, w[24:23] = 10 and w[20] = 0: TST, TEQ, CMP, CMN with S = 0 (R252 line 6). -/
def isMiscSpace (w : Word) : Bool :=
  !w.getLsbD 27 && !w.getLsbD 26 && w.getLsbD 24 && !w.getLsbD 23 && !w.getLsbD 20

/-- Format A7 (R252 line 2, R450, R451). -/
def decodeMultiply (c : Cond) (w : Word) : Instr :=
  bif w.getLsbD 21 then
    .armMla c (w.getLsbD 20) (w.extractLsb' 16 4) (w.extractLsb' 12 4) (w.extractLsb' 8 4) (w.extractLsb' 0 4)
  else
    .armMul c (w.getLsbD 20) (w.extractLsb' 16 4) (w.extractLsb' 12 4) (w.extractLsb' 8 4) (w.extractLsb' 0 4)

/-- Format A8 (R252 line 3, R452 to R455): bit 22 signed, bit 21 accumulate. -/
def decodeMultiplyLong (c : Cond) (w : Word) : Instr :=
  let s := w.getLsbD 20
  let rdHi := w.extractLsb' 16 4
  let rdLo := w.extractLsb' 12 4
  let rs := w.extractLsb' 8 4
  let rm := w.extractLsb' 0 4
  match w.getLsbD 22, w.getLsbD 21 with
  | false, false => .armUmull c s rdHi rdLo rs rm
  | false, true => .armUmlal c s rdHi rdLo rs rm
  | true, false => .armSmull c s rdHi rdLo rs rm
  | true, true => .armSmlal c s rdHi rdLo rs rm

/-- Format A9 (R252 line 4, R460, R461). -/
def decodeSwap (c : Cond) (w : Word) : Instr :=
  bif w.getLsbD 22 then
    .armSwpb c (w.extractLsb' 16 4) (w.extractLsb' 12 4) (w.extractLsb' 8 4) (w.extractLsb' 0 4)
  else
    .armSwp c (w.extractLsb' 16 4) (w.extractLsb' 12 4) (w.extractLsb' 8 4) (w.extractLsb' 0 4)

/-- R252 line 5 after multiply and swap: Undefined, the refused store space, or formats A10 and A11. -/
def decodeHalfwordSpace (c : Cond) (w : Word) : Instr :=
  let p := w.getLsbD 24
  let u := w.getLsbD 23
  let wb := w.getLsbD 21
  let rn := w.extractLsb' 16 4
  let rd := w.extractLsb' 12 4
  let hi := w.extractLsb' 8 4
  let lo := w.extractLsb' 0 4
  match w.getLsbD 6, w.getLsbD 5, w.getLsbD 20, w.getLsbD 22 with
  | false, false, _, _ => .armUndefMulspace c (w.extractLsb' 20 5) (w.extractLsb' 8 12) lo
  | true, sh0, false, _ => .armStrhDspace c (w.extractLsb' 21 4) (w.extractLsb' 8 12) sh0 lo
  | false, true, false, false => .armStrhReg c p u wb rn rd hi lo
  | false, true, false, true => .armStrhImm c p u wb rn rd hi lo
  | false, true, true, false => .armLdrhReg c p u wb rn rd hi lo
  | false, true, true, true => .armLdrhImm c p u wb rn rd hi lo
  | true, false, true, false => .armLdrsbReg c p u wb rn rd hi lo
  | true, false, true, true => .armLdrsbImm c p u wb rn rd hi lo
  | true, true, true, false => .armLdrshReg c p u wb rn rd hi lo
  | true, true, true, true => .armLdrshImm c p u wb rn rd hi lo

/-- R252 line 6: MRS, MSR (formats A4, A5, A6) or Undefined. -/
def decodeMiscSpace (c : Cond) (w : Word) : Instr :=
  bif !w.getLsbD 25 && zeroNibble w then
    bif w.getLsbD 21 then
      .armMsrReg c (w.getLsbD 22) (w.extractLsb' 16 4) (w.extractLsb' 12 4) (w.extractLsb' 8 4) (w.extractLsb' 0 4)
    else
      .armMrs c (w.getLsbD 22) (w.extractLsb' 16 4) (w.extractLsb' 12 4) (w.extractLsb' 8 4) (w.extractLsb' 0 4)
  else bif w.getLsbD 25 && w.getLsbD 21 then
    .armMsrImm c (w.getLsbD 22) (w.extractLsb' 16 4) (w.extractLsb' 12 4) (w.extractLsb' 8 4) (w.extractLsb' 0 8)
  else
    .armUndefMisc c (w.getLsbD 25) (w.extractLsb' 21 2) (w.extractLsb' 0 20)

/-- The second operand of formats A1, A2 and A3 (30_encoding R253). -/
def decodeOperand2 (w : Word) : Operand2 :=
  bif w.getLsbD 25 then .imm (w.extractLsb' 8 4) (w.extractLsb' 0 8)
  else bif w.getLsbD 4 then
    .shiftReg (w.extractLsb' 8 4) (ShiftKind.ofBits (w.extractLsb' 5 2)) (w.extractLsb' 0 4)
  else
    .shiftImm (w.extractLsb' 7 5) (ShiftKind.ofBits (w.extractLsb' 5 2)) (w.extractLsb' 0 4)

/-- R252 line 7: data processing, by the opcode of R255. -/
def decodeDataProcessing (c : Cond) (w : Word) : Instr :=
  let s := w.getLsbD 20
  let rn := w.extractLsb' 16 4
  let rd := w.extractLsb' 12 4
  let op2 := decodeOperand2 w
  match w.getLsbD 24, w.getLsbD 23, w.getLsbD 22, w.getLsbD 21 with
  | false, false, false, false => .armAnd c s rn rd op2
  | false, false, false, true => .armEor c s rn rd op2
  | false, false, true, false => .armSub c s rn rd op2
  | false, false, true, true => .armRsb c s rn rd op2
  | false, true, false, false => .armAdd c s rn rd op2
  | false, true, false, true => .armAdc c s rn rd op2
  | false, true, true, false => .armSbc c s rn rd op2
  | false, true, true, true => .armRsc c s rn rd op2
  | true, false, false, false => .armTst c rn rd op2
  | true, false, false, true => .armTeq c rn rd op2
  | true, false, true, false => .armCmp c rn rd op2
  | true, false, true, true => .armCmn c rn rd op2
  | true, true, false, false => .armOrr c s rn rd op2
  | true, true, false, true => .armMov c s rn rd op2
  | true, true, true, false => .armBic c s rn rd op2
  | true, true, true, true => .armMvn c s rn rd op2

/-- R252 line 9: LDR, STR, LDRB, STRB and their T forms (formats A12 and A13, R259). -/
def decodeSingleTransfer (c : Cond) (w : Word) : Instr :=
  let u := w.getLsbD 23
  let wb := w.getLsbD 21
  let rn := w.extractLsb' 16 4
  let rd := w.extractLsb' 12 4
  let off := w.extractLsb' 0 12
  let amount := w.extractLsb' 7 5
  let kind := ShiftKind.ofBits (w.extractLsb' 5 2)
  let rm := w.extractLsb' 0 4
  match w.getLsbD 20, w.getLsbD 22, w.getLsbD 25, w.getLsbD 24, wb with
  | false, false, false, true, _ => .armStrImmPre c u wb rn rd off
  | false, false, false, false, false => .armStrImmPost c u rn rd off
  | false, false, false, false, true => .armStrtImm c u rn rd off
  | false, false, true, true, _ => .armStrRegPre c u wb rn rd amount kind rm
  | false, false, true, false, false => .armStrRegPost c u rn rd amount kind rm
  | false, false, true, false, true => .armStrtReg c u rn rd amount kind rm
  | true, false, false, true, _ => .armLdrImmPre c u wb rn rd off
  | true, false, false, false, false => .armLdrImmPost c u rn rd off
  | true, false, false, false, true => .armLdrtImm c u rn rd off
  | true, false, true, true, _ => .armLdrRegPre c u wb rn rd amount kind rm
  | true, false, true, false, false => .armLdrRegPost c u rn rd amount kind rm
  | true, false, true, false, true => .armLdrtReg c u rn rd amount kind rm
  | false, true, false, true, _ => .armStrbImmPre c u wb rn rd off
  | false, true, false, false, false => .armStrbImmPost c u rn rd off
  | false, true, false, false, true => .armStrbtImm c u rn rd off
  | false, true, true, true, _ => .armStrbRegPre c u wb rn rd amount kind rm
  | false, true, true, false, false => .armStrbRegPost c u rn rd amount kind rm
  | false, true, true, false, true => .armStrbtReg c u rn rd amount kind rm
  | true, true, false, true, _ => .armLdrbImmPre c u wb rn rd off
  | true, true, false, false, false => .armLdrbImmPost c u rn rd off
  | true, true, false, false, true => .armLdrbtImm c u rn rd off
  | true, true, true, true, _ => .armLdrbRegPre c u wb rn rd amount kind rm
  | true, true, true, false, false => .armLdrbRegPost c u rn rd amount kind rm
  | true, true, true, false, true => .armLdrbtReg c u rn rd amount kind rm

/-- R252 line 10: LDM and STM (format A15). -/
def decodeBlockTransfer (c : Cond) (w : Word) : Instr :=
  let p := w.getLsbD 24
  let u := w.getLsbD 23
  let wb := w.getLsbD 21
  let rn := w.extractLsb' 16 4
  let rlist := w.extractLsb' 0 16
  match w.getLsbD 20, w.getLsbD 22 with
  | false, false => .armStm c p u wb rn rlist
  | false, true => .armStmUser c p u wb rn rlist
  | true, false => .armLdm c p u wb rn rlist
  | true, true => .armLdmUser c p u wb rn rlist

/-- R252 line 11: B and BL (format A16). -/
def decodeBranch (c : Cond) (w : Word) : Instr :=
  bif w.getLsbD 24 then .armBl c (w.extractLsb' 0 24) else .armB c (w.extractLsb' 0 24)

/-- R252 line 12: LDC and STC (format A18). -/
def decodeCoprocessorTransfer (c : Cond) (w : Word) : Instr :=
  let p := w.getLsbD 24
  let u := w.getLsbD 23
  let n := w.getLsbD 22
  let wb := w.getLsbD 21
  let rn := w.extractLsb' 16 4
  let crd := w.extractLsb' 12 4
  let cp := w.extractLsb' 8 4
  let off8 := w.extractLsb' 0 8
  bif w.getLsbD 20 then .armLdc c p u n wb rn crd cp off8 else .armStc c p u n wb rn crd cp off8

/-- R252 line 13: CDP, MCR and MRC (formats A19 and A20). -/
def decodeCoprocessorOperation (c : Cond) (w : Word) : Instr :=
  let crn := w.extractLsb' 16 4
  let rd := w.extractLsb' 12 4
  let cp := w.extractLsb' 8 4
  let op2 := w.extractLsb' 5 3
  let crm := w.extractLsb' 0 4
  match w.getLsbD 4, w.getLsbD 20 with
  | false, _ => .armCdp c (w.extractLsb' 20 4) crn rd cp op2 crm
  | true, false => .armMcr c (w.extractLsb' 21 3) crn rd cp op2 crm
  | true, true => .armMrc c (w.extractLsb' 21 3) crn rd cp op2 crm

/-- R252 lines 8 to 14: the words with w[27:26] other than 00. -/
def decodeTransferSpace (c : Cond) (w : Word) : Instr :=
  match w.getLsbD 27, w.getLsbD 26, w.getLsbD 25 with
  | false, _, true =>
    bif w.getLsbD 4 then .armUndefA14 c (w.extractLsb' 5 20) (w.extractLsb' 0 4)
    else decodeSingleTransfer c w
  | false, _, false => decodeSingleTransfer c w
  | true, false, false => decodeBlockTransfer c w
  | true, false, true => decodeBranch c w
  | true, true, false => decodeCoprocessorTransfer c w
  | true, true, true =>
    bif w.getLsbD 24 then .armSwi c (w.extractLsb' 0 24) else decodeCoprocessorOperation c w

/-- The ARM decode function of R252; the first test that matches wins. -/
def decodeArm (w : Word) : Instr :=
  let c := Cond.ofBits (w.extractLsb' 28 4)
  bif isBxIndex w then .armBx c (w.extractLsb' 8 12) (w.extractLsb' 0 4)
  else bif isMultiply w then decodeMultiply c w
  else bif isMultiplyLong w then decodeMultiplyLong c w
  else bif isSwap w then decodeSwap c w
  else bif isHalfwordSpace w then decodeHalfwordSpace c w
  else bif isMiscSpace w then decodeMiscSpace c w
  else bif !w.getLsbD 27 && !w.getLsbD 26 then decodeDataProcessing c w
  else decodeTransferSpace c w

/-! ### Decoding Thumb halfwords (30_encoding R291) -/

/-- Formats T1 and T2: h[15:13] = 000. -/
def decodeThumbShiftAdd (h : Half) : Instr :=
  let rs := h.extractLsb' 3 3
  let rd := h.extractLsb' 0 3
  match h.getLsbD 12, h.getLsbD 11, h.getLsbD 10, h.getLsbD 9 with
  | false, false, _, _ => .thumbLslImm (h.extractLsb' 6 5) rs rd
  | false, true, _, _ => .thumbLsrImm (h.extractLsb' 6 5) rs rd
  | true, false, _, _ => .thumbAsrImm (h.extractLsb' 6 5) rs rd
  | true, true, false, false => .thumbAddReg (h.extractLsb' 6 3) rs rd
  | true, true, false, true => .thumbSubReg (h.extractLsb' 6 3) rs rd
  | true, true, true, false => .thumbAddImm3 (h.extractLsb' 6 3) rs rd
  | true, true, true, true => .thumbSubImm3 (h.extractLsb' 6 3) rs rd

/-- Format T3: h[15:13] = 001. -/
def decodeThumbImm8 (h : Half) : Instr :=
  let rd := h.extractLsb' 8 3
  let off8 := h.extractLsb' 0 8
  match h.getLsbD 12, h.getLsbD 11 with
  | false, false => .thumbMovImm rd off8
  | false, true => .thumbCmpImm rd off8
  | true, false => .thumbAddImm8 rd off8
  | true, true => .thumbSubImm8 rd off8

/-- Format T4: h[15:10] = 010000, the 16-entry sub-table of R293. -/
def decodeThumbAlu (h : Half) : Instr :=
  let rs := h.extractLsb' 3 3
  let rd := h.extractLsb' 0 3
  match h.getLsbD 9, h.getLsbD 8, h.getLsbD 7, h.getLsbD 6 with
  | false, false, false, false => .thumbAnd rs rd
  | false, false, false, true => .thumbEor rs rd
  | false, false, true, false => .thumbLslReg rs rd
  | false, false, true, true => .thumbLsrReg rs rd
  | false, true, false, false => .thumbAsrReg rs rd
  | false, true, false, true => .thumbAdc rs rd
  | false, true, true, false => .thumbSbc rs rd
  | false, true, true, true => .thumbRorReg rs rd
  | true, false, false, false => .thumbTst rs rd
  | true, false, false, true => .thumbNeg rs rd
  | true, false, true, false => .thumbCmpReg rs rd
  | true, false, true, true => .thumbCmn rs rd
  | true, true, false, false => .thumbOrr rs rd
  | true, true, false, true => .thumbMul rs rd
  | true, true, true, false => .thumbBic rs rd
  | true, true, true, true => .thumbMvn rs rd

/-- Format T5: h[15:10] = 010001; d = H1 : Rd and s = H2 : Rs. -/
def decodeThumbHi (h : Half) : Instr :=
  let s := h.extractLsb' 3 4
  let d := BitVec.ofBool (h.getLsbD 7) ++ h.extractLsb' 0 3
  match h.getLsbD 9, h.getLsbD 8 with
  | false, false => .thumbAddHi s d
  | false, true => .thumbCmpHi s d
  | true, false => .thumbMovHi s d
  | true, true => .thumbBx (h.getLsbD 7) s (h.extractLsb' 0 3)

/-- Formats T7 and T8: h[15:12] = 0101. -/
def decodeThumbRegOffset (h : Half) : Instr :=
  let ro := h.extractLsb' 6 3
  let rb := h.extractLsb' 3 3
  let rd := h.extractLsb' 0 3
  match h.getLsbD 11, h.getLsbD 10, h.getLsbD 9 with
  | false, false, false => .thumbStrReg ro rb rd
  | false, false, true => .thumbStrhReg ro rb rd
  | false, true, false => .thumbStrbReg ro rb rd
  | false, true, true => .thumbLdsbReg ro rb rd
  | true, false, false => .thumbLdrReg ro rb rd
  | true, false, true => .thumbLdrhReg ro rb rd
  | true, true, false => .thumbLdrbReg ro rb rd
  | true, true, true => .thumbLdshReg ro rb rd

/-- h[15:14] = 01: formats T4 to T9. -/
def decodeThumb01 (h : Half) : Instr :=
  let off5 := h.extractLsb' 6 5
  let rb := h.extractLsb' 3 3
  let rd := h.extractLsb' 0 3
  match h.getLsbD 13, h.getLsbD 12, h.getLsbD 11, h.getLsbD 10 with
  | false, false, false, false => decodeThumbAlu h
  | false, false, false, true => decodeThumbHi h
  | false, false, true, _ => .thumbLdrPc (h.extractLsb' 8 3) (h.extractLsb' 0 8)
  | false, true, _, _ => decodeThumbRegOffset h
  | true, false, false, _ => .thumbStrImm off5 rb rd
  | true, false, true, _ => .thumbLdrImm off5 rb rd
  | true, true, false, _ => .thumbStrbImm off5 rb rd
  | true, true, true, _ => .thumbLdrbImm off5 rb rd

/-- h[15:12] = 1011: formats T13 and T14, and Undefined. -/
def decodeThumbMisc (h : Half) : Instr :=
  let low := h.extractLsb' 0 8
  match h.getLsbD 11, h.getLsbD 10, h.getLsbD 9, h.getLsbD 8 with
  | false, false, false, false =>
    bif h.getLsbD 7 then .thumbSubSpImm (h.extractLsb' 0 7) else .thumbAddSpImm (h.extractLsb' 0 7)
  | false, true, false, false => .thumbPush low
  | false, true, false, true => .thumbPushLr low
  | true, true, false, false => .thumbPop low
  | true, true, false, true => .thumbPopPc low
  | _, _, _, _ => .thumbUndefMisc (h.extractLsb' 8 4) low

/-- h[15:14] = 10: formats T10 to T14. -/
def decodeThumb10 (h : Half) : Instr :=
  let off5 := h.extractLsb' 6 5
  let rb := h.extractLsb' 3 3
  let rd := h.extractLsb' 0 3
  let rd8 := h.extractLsb' 8 3
  let word8 := h.extractLsb' 0 8
  match h.getLsbD 13, h.getLsbD 12, h.getLsbD 11 with
  | false, false, false => .thumbStrhImm off5 rb rd
  | false, false, true => .thumbLdrhImm off5 rb rd
  | false, true, false => .thumbStrSp rd8 word8
  | false, true, true => .thumbLdrSp rd8 word8
  | true, false, false => .thumbAddPc rd8 word8
  | true, false, true => .thumbAddSp rd8 word8
  | true, true, _ => decodeThumbMisc h

/-- Format T16 and its two neighbours: h[15:12] = 1101 (R293). -/
def decodeThumbCond (h : Half) : Instr :=
  let low := h.extractLsb' 0 8
  match h.getLsbD 11, h.getLsbD 10, h.getLsbD 9, h.getLsbD 8 with
  | false, false, false, false => .thumbBeq low
  | false, false, false, true => .thumbBne low
  | false, false, true, false => .thumbBcs low
  | false, false, true, true => .thumbBcc low
  | false, true, false, false => .thumbBmi low
  | false, true, false, true => .thumbBpl low
  | false, true, true, false => .thumbBvs low
  | false, true, true, true => .thumbBvc low
  | true, false, false, false => .thumbBhi low
  | true, false, false, true => .thumbBls low
  | true, false, true, false => .thumbBge low
  | true, false, true, true => .thumbBlt low
  | true, true, false, false => .thumbBgt low
  | true, true, false, true => .thumbBle low
  | true, true, true, false => .thumbUndefCond low
  | true, true, true, true => .thumbSwi low

/-- h[15:14] = 11: formats T15 to T19. -/
def decodeThumb11 (h : Half) : Instr :=
  let off11 := h.extractLsb' 0 11
  match h.getLsbD 13, h.getLsbD 12, h.getLsbD 11 with
  | false, false, false => .thumbStmia (h.extractLsb' 8 3) (h.extractLsb' 0 8)
  | false, false, true => .thumbLdmia (h.extractLsb' 8 3) (h.extractLsb' 0 8)
  | false, true, _ => decodeThumbCond h
  | true, false, false => .thumbB off11
  | true, false, true => .thumbUndefLong off11
  | true, true, false => .thumbBlHi off11
  | true, true, true => .thumbBlLo off11

/-- The Thumb decode function of R291. -/
def decodeThumb (h : Half) : Instr :=
  match h.getLsbD 15, h.getLsbD 14, h.getLsbD 13 with
  | false, false, false => decodeThumbShiftAdd h
  | false, false, true => decodeThumbImm8 h
  | false, true, _ => decodeThumb01 h
  | true, false, _ => decodeThumb10 h
  | true, true, _ => decodeThumb11 h

/-! ### Bytes -/

/-- Why bytes decode to nothing. -/
inductive DecodeError where
  /-- There are fewer bytes than one instruction has (4 in ARM state, 2 in Thumb state; 30_encoding R296). -/
  | truncated
  deriving DecidableEq, Repr

/-- Four bytes, the first at the lowest address (20_memory R151). -/
def wordOfBytes (b0 b1 b2 b3 : Byte) : Word := b3 ++ b2 ++ b1 ++ b0

/-- Two bytes, the first at the lower address (20_memory R151). -/
def halfOfBytes (b0 b1 : Byte) : Half := b1 ++ b0

/-- Decodes the first instruction of a byte sequence in the state CPSR.T selects (10_state R67), and gives back
the bytes after it. -/
def decode (thumb : Bool) (bytes : List Byte) : Except DecodeError (Instr × List Byte) :=
  match thumb, bytes with
  | false, b0 :: b1 :: b2 :: b3 :: rest => .ok (decodeArm (wordOfBytes b0 b1 b2 b3), rest)
  | true, b0 :: b1 :: rest => .ok (decodeThumb (halfOfBytes b0 b1), rest)
  | _, _ => .error .truncated

/-- The bytes of a word, lowest address first (20_memory R151). -/
def bytesOfWord (w : Word) : List Byte :=
  [w.extractLsb' 0 8, w.extractLsb' 8 8, w.extractLsb' 16 8, w.extractLsb' 24 8]

/-- The bytes of a halfword, lowest address first (20_memory R151). -/
def bytesOfHalf (h : Half) : List Byte := [h.extractLsb' 0 8, h.extractLsb' 8 8]

/-- The instruction the decoder reads from an instruction of `nbits` bits numbered as the opcode table numbers
them: 32 bits are an ARM word, 16 bits a Thumb halfword; no other length exists (30_encoding R296). -/
def decodeTableWord (nbits w : Nat) : Option Instr :=
  if nbits = 32 then
    match decode false (bytesOfWord (BitVec.ofNat 32 w)) with
    | .ok (i, _) => some i
    | .error _ => none
  else if nbits = 16 then
    match decode true (bytesOfHalf (BitVec.ofNat 16 w)) with
    | .ok (i, _) => some i
    | .error _ => none
  else none

/-! ### Encoding (30_encoding R253, R292) -/

/-- The code of one instruction: an ARM word or a Thumb halfword. -/
inductive Code where
  | arm (w : Word)
  | thumb (h : Half)
  deriving DecidableEq, Repr

/-- The bytes of a code, lowest address first. -/
def Code.bytes : Code → List Byte
  | .arm w => bytesOfWord w
  | .thumb h => bytesOfHalf h

/-- Whether a code is run in Thumb state. -/
def Code.isThumb : Code → Bool
  | .arm _ => false
  | .thumb _ => true

/-- The instruction of a code. -/
def decodeCode : Code → Instr
  | .arm w => decodeArm w
  | .thumb h => decodeThumb h

/-- Formats A1, A2 and A3. -/
def encodeDataProcessing (c : Cond) (op : BitVec 4) (s : Bool) (rn rd : RegNum) : Operand2 → Word
  | .imm rot imm8 => c.toBits ++ 0b001#3 ++ op ++ BitVec.ofBool s ++ rn ++ rd ++ rot ++ imm8
  | .shiftImm amount kind rm =>
    c.toBits ++ 0b000#3 ++ op ++ BitVec.ofBool s ++ rn ++ rd ++ amount ++ kind.toBits ++ 0#1 ++ rm
  | .shiftReg rs kind rm =>
    c.toBits ++ 0b000#3 ++ op ++ BitVec.ofBool s ++ rn ++ rd ++ rs ++ 0#1 ++ kind.toBits ++ 1#1 ++ rm

/-- Format A7. -/
def encodeMultiply (c : Cond) (a s : Bool) (rd rn rs rm : RegNum) : Word :=
  c.toBits ++ 0b000000#6 ++ BitVec.ofBool a ++ BitVec.ofBool s ++ rd ++ rn ++ rs ++ 0b1001#4 ++ rm

/-- Format A8. -/
def encodeMultiplyLong (c : Cond) (signed a s : Bool) (rdHi rdLo rs rm : RegNum) : Word :=
  c.toBits ++ 0b00001#5 ++ BitVec.ofBool signed ++ BitVec.ofBool a ++ BitVec.ofBool s ++ rdHi ++ rdLo ++ rs ++
    0b1001#4 ++ rm

/-- Format A9. -/
def encodeSwap (c : Cond) (b : Bool) (rn rd sbz rm : RegNum) : Word :=
  c.toBits ++ 0b00010#5 ++ BitVec.ofBool b ++ 0b00#2 ++ rn ++ rd ++ sbz ++ 0b1001#4 ++ rm

/-- Formats A10 and A11; `i` is bit 22. -/
def encodeHalfword (c : Cond) (p u i w l : Bool) (rn rd hi : RegNum) (sh : BitVec 2) (lo : RegNum) : Word :=
  c.toBits ++ 0b000#3 ++ BitVec.ofBool p ++ BitVec.ofBool u ++ BitVec.ofBool i ++ BitVec.ofBool w ++
    BitVec.ofBool l ++ rn ++ rd ++ hi ++ 1#1 ++ sh ++ 1#1 ++ lo

/-- Format A12. -/
def encodeTransferImm (c : Cond) (p u b w l : Bool) (rn rd : RegNum) (imm12 : BitVec 12) : Word :=
  c.toBits ++ 0b010#3 ++ BitVec.ofBool p ++ BitVec.ofBool u ++ BitVec.ofBool b ++ BitVec.ofBool w ++
    BitVec.ofBool l ++ rn ++ rd ++ imm12

/-- Format A13. -/
def encodeTransferReg (c : Cond) (p u b w l : Bool) (rn rd : RegNum) (amount : BitVec 5) (kind : ShiftKind)
    (rm : RegNum) : Word :=
  c.toBits ++ 0b011#3 ++ BitVec.ofBool p ++ BitVec.ofBool u ++ BitVec.ofBool b ++ BitVec.ofBool w ++
    BitVec.ofBool l ++ rn ++ rd ++ amount ++ kind.toBits ++ 0#1 ++ rm

/-- Format A15; `s` is the user-bank bit. -/
def encodeBlockTransfer (c : Cond) (p u s w l : Bool) (rn : RegNum) (rlist : BitVec 16) : Word :=
  c.toBits ++ 0b100#3 ++ BitVec.ofBool p ++ BitVec.ofBool u ++ BitVec.ofBool s ++ BitVec.ofBool w ++
    BitVec.ofBool l ++ rn ++ rlist

/-- Format A18. -/
def encodeCoprocessorTransfer (c : Cond) (p u n w l : Bool) (rn : RegNum) (crd cp : BitVec 4) (off8 : BitVec 8) :
    Word :=
  c.toBits ++ 0b110#3 ++ BitVec.ofBool p ++ BitVec.ofBool u ++ BitVec.ofBool n ++ BitVec.ofBool w ++
    BitVec.ofBool l ++ rn ++ crd ++ cp ++ off8

/-- Format A20. -/
def encodeCoprocessorMove (c : Cond) (op1 : BitVec 3) (l : Bool) (crn : BitVec 4) (rd : RegNum) (cp : BitVec 4)
    (op2 : BitVec 3) (crm : BitVec 4) : Word :=
  c.toBits ++ 0b1110#4 ++ op1 ++ BitVec.ofBool l ++ crn ++ rd ++ cp ++ op2 ++ 1#1 ++ crm

/-- Formats T1: three register or immediate fields after a 5-bit operation code. -/
def encodeThumbShift (op : BitVec 5) (off5 : BitVec 5) (rs rd : LowReg) : Half := op ++ off5 ++ rs ++ rd

/-- Formats T2, T7 and T8: a 7-bit operation code and three 3-bit fields. -/
def encodeThumb333 (op : BitVec 7) (a b d : BitVec 3) : Half := op ++ a ++ b ++ d

/-- Formats T3, T6, T11, T12 and T15: a 5-bit operation code, a register and eight bits. -/
def encodeThumbReg8 (op : BitVec 5) (r : LowReg) (low : BitVec 8) : Half := op ++ r ++ low

/-- Format T4: a 10-bit operation code and two registers. -/
def encodeThumbAlu (op : BitVec 10) (rs rd : LowReg) : Half := op ++ rs ++ rd

/-- Format T5 with full register numbers s = H2 : Rs and d = H1 : Rd. -/
def encodeThumbHi (op : BitVec 8) (s d : RegNum) : Half :=
  op ++ BitVec.ofBool (d.getLsbD 3) ++ s ++ d.extractLsb' 0 3

/-- Formats T14, T16 and T17: an 8-bit operation code and eight bits. -/
def encodeThumb8 (op : BitVec 8) (low : BitVec 8) : Half := op ++ low

/-- Formats T18 and T19: a 5-bit operation code and eleven bits. -/
def encodeThumb11 (op : BitVec 5) (low : BitVec 11) : Half := op ++ low

/-- The word or halfword of an instruction. -/
def encode : Instr → Code
  | .armAnd c s rn rd op2 => .arm (encodeDataProcessing c 0#4 s rn rd op2)
  | .armEor c s rn rd op2 => .arm (encodeDataProcessing c 1#4 s rn rd op2)
  | .armSub c s rn rd op2 => .arm (encodeDataProcessing c 2#4 s rn rd op2)
  | .armRsb c s rn rd op2 => .arm (encodeDataProcessing c 3#4 s rn rd op2)
  | .armAdd c s rn rd op2 => .arm (encodeDataProcessing c 4#4 s rn rd op2)
  | .armAdc c s rn rd op2 => .arm (encodeDataProcessing c 5#4 s rn rd op2)
  | .armSbc c s rn rd op2 => .arm (encodeDataProcessing c 6#4 s rn rd op2)
  | .armRsc c s rn rd op2 => .arm (encodeDataProcessing c 7#4 s rn rd op2)
  | .armTst c rn rd op2 => .arm (encodeDataProcessing c 8#4 true rn rd op2)
  | .armTeq c rn rd op2 => .arm (encodeDataProcessing c 9#4 true rn rd op2)
  | .armCmp c rn rd op2 => .arm (encodeDataProcessing c 10#4 true rn rd op2)
  | .armCmn c rn rd op2 => .arm (encodeDataProcessing c 11#4 true rn rd op2)
  | .armOrr c s rn rd op2 => .arm (encodeDataProcessing c 12#4 s rn rd op2)
  | .armMov c s rn rd op2 => .arm (encodeDataProcessing c 13#4 s rn rd op2)
  | .armBic c s rn rd op2 => .arm (encodeDataProcessing c 14#4 s rn rd op2)
  | .armMvn c s rn rd op2 => .arm (encodeDataProcessing c 15#4 s rn rd op2)
  | .armMrs c r sbo rd sbzHigh sbzLow => .arm (c.toBits ++ 0b00010#5 ++ BitVec.ofBool r ++ 0b00#2 ++ sbo ++ rd ++ sbzHigh ++ 0b0000#4 ++ sbzLow)
  | .armMsrReg c r mask sbo sbz rm => .arm (c.toBits ++ 0b00010#5 ++ BitVec.ofBool r ++ 0b10#2 ++ mask ++ sbo ++ sbz ++ 0b0000#4 ++ rm)
  | .armMsrImm c r mask sbo rot imm8 => .arm (c.toBits ++ 0b00110#5 ++ BitVec.ofBool r ++ 0b10#2 ++ mask ++ sbo ++ rot ++ imm8)
  | .armMul c s rd rn rs rm => .arm (encodeMultiply c false s rd rn rs rm)
  | .armMla c s rd rn rs rm => .arm (encodeMultiply c true s rd rn rs rm)
  | .armUmull c s rdHi rdLo rs rm => .arm (encodeMultiplyLong c false false s rdHi rdLo rs rm)
  | .armUmlal c s rdHi rdLo rs rm => .arm (encodeMultiplyLong c false true s rdHi rdLo rs rm)
  | .armSmull c s rdHi rdLo rs rm => .arm (encodeMultiplyLong c true false s rdHi rdLo rs rm)
  | .armSmlal c s rdHi rdLo rs rm => .arm (encodeMultiplyLong c true true s rdHi rdLo rs rm)
  | .armSwp c rn rd sbz rm => .arm (encodeSwap c false rn rd sbz rm)
  | .armSwpb c rn rd sbz rm => .arm (encodeSwap c true rn rd sbz rm)
  | .armStrhReg c p u w rn rd hi lo => .arm (encodeHalfword c p u false w false rn rd hi 1#2 lo)
  | .armStrhImm c p u w rn rd hi lo => .arm (encodeHalfword c p u true w false rn rd hi 1#2 lo)
  | .armLdrhReg c p u w rn rd hi lo => .arm (encodeHalfword c p u false w true rn rd hi 1#2 lo)
  | .armLdrhImm c p u w rn rd hi lo => .arm (encodeHalfword c p u true w true rn rd hi 1#2 lo)
  | .armLdrsbReg c p u w rn rd hi lo => .arm (encodeHalfword c p u false w true rn rd hi 2#2 lo)
  | .armLdrsbImm c p u w rn rd hi lo => .arm (encodeHalfword c p u true w true rn rd hi 2#2 lo)
  | .armLdrshReg c p u w rn rd hi lo => .arm (encodeHalfword c p u false w true rn rd hi 3#2 lo)
  | .armLdrshImm c p u w rn rd hi lo => .arm (encodeHalfword c p u true w true rn rd hi 3#2 lo)
  | .armStrhDspace c puiw mid sh0 low => .arm (c.toBits ++ 0b000#3 ++ puiw ++ 0#1 ++ mid ++ 0b11#2 ++ BitVec.ofBool sh0 ++ 1#1 ++ low)
  | .armStrImmPre c u w rn rd imm12 => .arm (encodeTransferImm c true u false w false rn rd imm12)
  | .armStrImmPost c u rn rd imm12 => .arm (encodeTransferImm c false u false false false rn rd imm12)
  | .armStrtImm c u rn rd imm12 => .arm (encodeTransferImm c false u false true false rn rd imm12)
  | .armStrRegPre c u w rn rd amount kind rm => .arm (encodeTransferReg c true u false w false rn rd amount kind rm)
  | .armStrRegPost c u rn rd amount kind rm => .arm (encodeTransferReg c false u false false false rn rd amount kind rm)
  | .armStrtReg c u rn rd amount kind rm => .arm (encodeTransferReg c false u false true false rn rd amount kind rm)
  | .armLdrImmPre c u w rn rd imm12 => .arm (encodeTransferImm c true u false w true rn rd imm12)
  | .armLdrImmPost c u rn rd imm12 => .arm (encodeTransferImm c false u false false true rn rd imm12)
  | .armLdrtImm c u rn rd imm12 => .arm (encodeTransferImm c false u false true true rn rd imm12)
  | .armLdrRegPre c u w rn rd amount kind rm => .arm (encodeTransferReg c true u false w true rn rd amount kind rm)
  | .armLdrRegPost c u rn rd amount kind rm => .arm (encodeTransferReg c false u false false true rn rd amount kind rm)
  | .armLdrtReg c u rn rd amount kind rm => .arm (encodeTransferReg c false u false true true rn rd amount kind rm)
  | .armStrbImmPre c u w rn rd imm12 => .arm (encodeTransferImm c true u true w false rn rd imm12)
  | .armStrbImmPost c u rn rd imm12 => .arm (encodeTransferImm c false u true false false rn rd imm12)
  | .armStrbtImm c u rn rd imm12 => .arm (encodeTransferImm c false u true true false rn rd imm12)
  | .armStrbRegPre c u w rn rd amount kind rm => .arm (encodeTransferReg c true u true w false rn rd amount kind rm)
  | .armStrbRegPost c u rn rd amount kind rm => .arm (encodeTransferReg c false u true false false rn rd amount kind rm)
  | .armStrbtReg c u rn rd amount kind rm => .arm (encodeTransferReg c false u true true false rn rd amount kind rm)
  | .armLdrbImmPre c u w rn rd imm12 => .arm (encodeTransferImm c true u true w true rn rd imm12)
  | .armLdrbImmPost c u rn rd imm12 => .arm (encodeTransferImm c false u true false true rn rd imm12)
  | .armLdrbtImm c u rn rd imm12 => .arm (encodeTransferImm c false u true true true rn rd imm12)
  | .armLdrbRegPre c u w rn rd amount kind rm => .arm (encodeTransferReg c true u true w true rn rd amount kind rm)
  | .armLdrbRegPost c u rn rd amount kind rm => .arm (encodeTransferReg c false u true false true rn rd amount kind rm)
  | .armLdrbtReg c u rn rd amount kind rm => .arm (encodeTransferReg c false u true true true rn rd amount kind rm)
  | .armStm c p u w rn rlist => .arm (encodeBlockTransfer c p u false w false rn rlist)
  | .armStmUser c p u w rn rlist => .arm (encodeBlockTransfer c p u true w false rn rlist)
  | .armLdm c p u w rn rlist => .arm (encodeBlockTransfer c p u false w true rn rlist)
  | .armLdmUser c p u w rn rlist => .arm (encodeBlockTransfer c p u true w true rn rlist)
  | .armB c off24 => .arm (c.toBits ++ 0b1010#4 ++ off24)
  | .armBl c off24 => .arm (c.toBits ++ 0b1011#4 ++ off24)
  | .armBx c sbo rm => .arm (c.toBits ++ 0b00010010#8 ++ sbo ++ 0b0001#4 ++ rm)
  | .armSwi c comment24 => .arm (c.toBits ++ 0b1111#4 ++ comment24)
  | .armUndefA14 c high low => .arm (c.toBits ++ 0b011#3 ++ high ++ 1#1 ++ low)
  | .armUndefMulspace c high mid low => .arm (c.toBits ++ 0b000#3 ++ high ++ mid ++ 0b1001#4 ++ low)
  | .armUndefMisc c imm op rest => .arm (c.toBits ++ 0b00#2 ++ BitVec.ofBool imm ++ 0b10#2 ++ op ++ 0#1 ++ rest)
  | .armLdc c p u n w rn crd cp off8 => .arm (encodeCoprocessorTransfer c p u n w true rn crd cp off8)
  | .armStc c p u n w rn crd cp off8 => .arm (encodeCoprocessorTransfer c p u n w false rn crd cp off8)
  | .armCdp c op1 crn crd cp op2 crm => .arm (c.toBits ++ 0b1110#4 ++ op1 ++ crn ++ crd ++ cp ++ op2 ++ 0#1 ++ crm)
  | .armMcr c op1 crn rd cp op2 crm => .arm (encodeCoprocessorMove c op1 false crn rd cp op2 crm)
  | .armMrc c op1 crn rd cp op2 crm => .arm (encodeCoprocessorMove c op1 true crn rd cp op2 crm)
  | .thumbLslImm off5 rs rd => .thumb (encodeThumbShift 0#5 off5 rs rd)
  | .thumbLsrImm off5 rs rd => .thumb (encodeThumbShift 1#5 off5 rs rd)
  | .thumbAsrImm off5 rs rd => .thumb (encodeThumbShift 2#5 off5 rs rd)
  | .thumbAddReg a rs rd => .thumb (encodeThumb333 0b0001100#7 a rs rd)
  | .thumbSubReg a rs rd => .thumb (encodeThumb333 0b0001101#7 a rs rd)
  | .thumbAddImm3 a rs rd => .thumb (encodeThumb333 0b0001110#7 a rs rd)
  | .thumbSubImm3 a rs rd => .thumb (encodeThumb333 0b0001111#7 a rs rd)
  | .thumbMovImm rd off8 => .thumb (encodeThumbReg8 0b00100#5 rd off8)
  | .thumbCmpImm rd off8 => .thumb (encodeThumbReg8 0b00101#5 rd off8)
  | .thumbAddImm8 rd off8 => .thumb (encodeThumbReg8 0b00110#5 rd off8)
  | .thumbSubImm8 rd off8 => .thumb (encodeThumbReg8 0b00111#5 rd off8)
  | .thumbAnd rs rd => .thumb (encodeThumbAlu 0b0100000000#10 rs rd)
  | .thumbEor rs rd => .thumb (encodeThumbAlu 0b0100000001#10 rs rd)
  | .thumbLslReg rs rd => .thumb (encodeThumbAlu 0b0100000010#10 rs rd)
  | .thumbLsrReg rs rd => .thumb (encodeThumbAlu 0b0100000011#10 rs rd)
  | .thumbAsrReg rs rd => .thumb (encodeThumbAlu 0b0100000100#10 rs rd)
  | .thumbAdc rs rd => .thumb (encodeThumbAlu 0b0100000101#10 rs rd)
  | .thumbSbc rs rd => .thumb (encodeThumbAlu 0b0100000110#10 rs rd)
  | .thumbRorReg rs rd => .thumb (encodeThumbAlu 0b0100000111#10 rs rd)
  | .thumbTst rs rd => .thumb (encodeThumbAlu 0b0100001000#10 rs rd)
  | .thumbNeg rs rd => .thumb (encodeThumbAlu 0b0100001001#10 rs rd)
  | .thumbCmpReg rs rd => .thumb (encodeThumbAlu 0b0100001010#10 rs rd)
  | .thumbCmn rs rd => .thumb (encodeThumbAlu 0b0100001011#10 rs rd)
  | .thumbOrr rs rd => .thumb (encodeThumbAlu 0b0100001100#10 rs rd)
  | .thumbMul rs rd => .thumb (encodeThumbAlu 0b0100001101#10 rs rd)
  | .thumbBic rs rd => .thumb (encodeThumbAlu 0b0100001110#10 rs rd)
  | .thumbMvn rs rd => .thumb (encodeThumbAlu 0b0100001111#10 rs rd)
  | .thumbAddHi s d => .thumb (encodeThumbHi 0b01000100#8 s d)
  | .thumbCmpHi s d => .thumb (encodeThumbHi 0b01000101#8 s d)
  | .thumbMovHi s d => .thumb (encodeThumbHi 0b01000110#8 s d)
  | .thumbBx h1 s sbz => .thumb (0b01000111#8 ++ BitVec.ofBool h1 ++ s ++ sbz)
  | .thumbLdrPc rd word8 => .thumb (encodeThumbReg8 0b01001#5 rd word8)
  | .thumbStrReg ro rb rd => .thumb (encodeThumb333 0b0101000#7 ro rb rd)
  | .thumbStrhReg ro rb rd => .thumb (encodeThumb333 0b0101001#7 ro rb rd)
  | .thumbStrbReg ro rb rd => .thumb (encodeThumb333 0b0101010#7 ro rb rd)
  | .thumbLdsbReg ro rb rd => .thumb (encodeThumb333 0b0101011#7 ro rb rd)
  | .thumbLdrReg ro rb rd => .thumb (encodeThumb333 0b0101100#7 ro rb rd)
  | .thumbLdrhReg ro rb rd => .thumb (encodeThumb333 0b0101101#7 ro rb rd)
  | .thumbLdrbReg ro rb rd => .thumb (encodeThumb333 0b0101110#7 ro rb rd)
  | .thumbLdshReg ro rb rd => .thumb (encodeThumb333 0b0101111#7 ro rb rd)
  | .thumbStrImm off5 rb rd => .thumb (encodeThumbShift 0b01100#5 off5 rb rd)
  | .thumbLdrImm off5 rb rd => .thumb (encodeThumbShift 0b01101#5 off5 rb rd)
  | .thumbStrbImm off5 rb rd => .thumb (encodeThumbShift 0b01110#5 off5 rb rd)
  | .thumbLdrbImm off5 rb rd => .thumb (encodeThumbShift 0b01111#5 off5 rb rd)
  | .thumbStrhImm off5 rb rd => .thumb (encodeThumbShift 0b10000#5 off5 rb rd)
  | .thumbLdrhImm off5 rb rd => .thumb (encodeThumbShift 0b10001#5 off5 rb rd)
  | .thumbStrSp rd word8 => .thumb (encodeThumbReg8 0b10010#5 rd word8)
  | .thumbLdrSp rd word8 => .thumb (encodeThumbReg8 0b10011#5 rd word8)
  | .thumbAddPc rd word8 => .thumb (encodeThumbReg8 0b10100#5 rd word8)
  | .thumbAddSp rd word8 => .thumb (encodeThumbReg8 0b10101#5 rd word8)
  | .thumbAddSpImm sword7 => .thumb (0b101100000#9 ++ sword7)
  | .thumbSubSpImm sword7 => .thumb (0b101100001#9 ++ sword7)
  | .thumbPush rlist => .thumb (encodeThumb8 0b10110100#8 rlist)
  | .thumbPushLr rlist => .thumb (encodeThumb8 0b10110101#8 rlist)
  | .thumbPop rlist => .thumb (encodeThumb8 0b10111100#8 rlist)
  | .thumbPopPc rlist => .thumb (encodeThumb8 0b10111101#8 rlist)
  | .thumbStmia rb rlist => .thumb (encodeThumbReg8 0b11000#5 rb rlist)
  | .thumbLdmia rb rlist => .thumb (encodeThumbReg8 0b11001#5 rb rlist)
  | .thumbBeq low => .thumb (encodeThumb8 0b11010000#8 low)
  | .thumbBne low => .thumb (encodeThumb8 0b11010001#8 low)
  | .thumbBcs low => .thumb (encodeThumb8 0b11010010#8 low)
  | .thumbBcc low => .thumb (encodeThumb8 0b11010011#8 low)
  | .thumbBmi low => .thumb (encodeThumb8 0b11010100#8 low)
  | .thumbBpl low => .thumb (encodeThumb8 0b11010101#8 low)
  | .thumbBvs low => .thumb (encodeThumb8 0b11010110#8 low)
  | .thumbBvc low => .thumb (encodeThumb8 0b11010111#8 low)
  | .thumbBhi low => .thumb (encodeThumb8 0b11011000#8 low)
  | .thumbBls low => .thumb (encodeThumb8 0b11011001#8 low)
  | .thumbBge low => .thumb (encodeThumb8 0b11011010#8 low)
  | .thumbBlt low => .thumb (encodeThumb8 0b11011011#8 low)
  | .thumbBgt low => .thumb (encodeThumb8 0b11011100#8 low)
  | .thumbBle low => .thumb (encodeThumb8 0b11011101#8 low)
  | .thumbUndefCond low => .thumb (encodeThumb8 0b11011110#8 low)
  | .thumbSwi low => .thumb (encodeThumb8 0b11011111#8 low)
  | .thumbB off11 => .thumb (encodeThumb11 0b11100#5 off11)
  | .thumbUndefLong off11 => .thumb (encodeThumb11 0b11101#5 off11)
  | .thumbBlHi off11 => .thumb (encodeThumb11 0b11110#5 off11)
  | .thumbBlLo off11 => .thumb (encodeThumb11 0b11111#5 off11)
  | .thumbUndefMisc op low => .thumb (0b1011#4 ++ op ++ low)

end Sys2Proof
end

