-- ==== Sys2Proof/Machine/State.lean ====
section
/-! DEFINITION. Machine/State.lean: everything the spec gives the machine (10_state R50; 20_memory R185 to R199), as
plain data, the reasons a step can stop, and the state after reset (10_state R73, 70_reset_and_hazards R920). -/

namespace Sys2Proof.Machine

/-- The seven processor modes (10_state R53). -/
inductive Mode where
  | user | fiq | irq | svc | abt | und | sys
  deriving DecidableEq, Repr

/-- The 30 stored general registers (10_state R51). -/
inductive PhysReg where
  | r0 | r1 | r2 | r3 | r4 | r5 | r6 | r7 | r8usr | r9usr
  | r10usr | r11usr | r12usr | r13usr | r14usr | r8fiq | r9fiq | r10fiq | r11fiq | r12fiq
  | r13fiq | r14fiq | r13irq | r14irq | r13svc | r14svc | r13abt | r14abt | r13und | r14und
  deriving DecidableEq, Repr

/-- The place of a PhysReg in its vector. -/
def PhysReg.idx : PhysReg → Fin 30
  | .r0 => 0
  | .r1 => 1
  | .r2 => 2
  | .r3 => 3
  | .r4 => 4
  | .r5 => 5
  | .r6 => 6
  | .r7 => 7
  | .r8usr => 8
  | .r9usr => 9
  | .r10usr => 10
  | .r11usr => 11
  | .r12usr => 12
  | .r13usr => 13
  | .r14usr => 14
  | .r8fiq => 15
  | .r9fiq => 16
  | .r10fiq => 17
  | .r11fiq => 18
  | .r12fiq => 19
  | .r13fiq => 20
  | .r14fiq => 21
  | .r13irq => 22
  | .r14irq => 23
  | .r13svc => 24
  | .r14svc => 25
  | .r13abt => 26
  | .r14abt => 27
  | .r13und => 28
  | .r14und => 29

/-- CPSR (10_state R57): the flags, I, T and the mode. Bit F is hard-wired to 1 and bits 27..8 to 0
(R57, R58), so they are no storage; log 3. -/
structure Cpsr where
  n : Bool
  z : Bool
  c : Bool
  v : Bool
  i : Bool
  t : Bool
  mode : Mode
  deriving DecidableEq, Repr

/-- The five SPSRs (10_state R59). -/
structure Spsrs where
  fiq : Word
  irq : Word
  svc : Word
  abt : Word
  und : Word
  deriving DecidableEq, Repr

/-- The granules of the core table of 20_memory R186. -/
inductive IoReg where
  | dispcnt | dispstat | vcount | bg0cnt | bg1cnt | bg2cnt | bg3cnt | bg0hofs | bg0vofs | bg1hofs
  | bg1vofs | bg2hofs | bg2vofs | bg3hofs | bg3vofs | bg2pa | bg2pb | bg2pc | bg2pd | bg2xl
  | bg2xh | bg2yl | bg2yh | bg3pa | bg3pb | bg3pc | bg3pd | bg3xl | bg3xh | bg3yl
  | bg3yh | win0h | win1h | win0v | win1v | winin | winout | mosaic | bldcnt | bldalpha
  | bldy | keyinput | ie | if_ | ime
  deriving DecidableEq, Repr

/-- The place of a IoReg in its vector. -/
def IoReg.idx : IoReg → Fin 45
  | .dispcnt => 0
  | .dispstat => 1
  | .vcount => 2
  | .bg0cnt => 3
  | .bg1cnt => 4
  | .bg2cnt => 5
  | .bg3cnt => 6
  | .bg0hofs => 7
  | .bg0vofs => 8
  | .bg1hofs => 9
  | .bg1vofs => 10
  | .bg2hofs => 11
  | .bg2vofs => 12
  | .bg3hofs => 13
  | .bg3vofs => 14
  | .bg2pa => 15
  | .bg2pb => 16
  | .bg2pc => 17
  | .bg2pd => 18
  | .bg2xl => 19
  | .bg2xh => 20
  | .bg2yl => 21
  | .bg2yh => 22
  | .bg3pa => 23
  | .bg3pb => 24
  | .bg3pc => 25
  | .bg3pd => 26
  | .bg3xl => 27
  | .bg3xh => 28
  | .bg3yl => 29
  | .bg3yh => 30
  | .win0h => 31
  | .win1h => 32
  | .win0v => 33
  | .win1v => 34
  | .winin => 35
  | .winout => 36
  | .mosaic => 37
  | .bldcnt => 38
  | .bldalpha => 39
  | .bldy => 40
  | .keyinput => 41
  | .ie => 42
  | .if_ => 43
  | .ime => 44

/-- The stored values of the granules of R186. -/
abbrev IoFile := Vector Half 45

/-- One output pixel (10_state R72). -/
structure Rgb where
  r : Byte
  g : Byte
  b : Byte
  deriving DecidableEq, Repr

/-- The width of a bus access (20_memory R150). -/
inductive Width where
  | byte | half | word
  deriving DecidableEq, Repr

/-- One bus access of a DMA transfer (00_scope R7 (d)). -/
inductive DmaOp where
  | read (width : Width) (addr : Word)
  | write (width : Width) (addr : Word) (value : Word)
  deriving DecidableEq, Repr

/-- One action of the environment between two CPU steps (00_scope R7). -/
inductive EnvAction where
  /-- R7 (a): OR bits into IF. -/
  | requestIrq (bits : Half)
  /-- R7 (b): the current scanline. -/
  | setVcount (line : Fin 228)
  /-- R7 (b): DISPSTAT bits 0, 1 and 2. -/
  | setDispstatFlags (vblank hblank vcountMatch : Bool)
  /-- R7 (c): the keypad. -/
  | setKeyinput (keys : Half)
  /-- R7 (d): a DMA transfer, atomic with respect to instructions. -/
  | dma (ops : List DmaOp)
  /-- R7 (f): reset. -/
  | reset
  deriving DecidableEq, Repr

/-- How far the current scanline is (70_reset_and_hazards R950). Log 8. -/
inductive LinePhase where
  /-- The CPU runs its budget for the line. -/
  | budget
  /-- The environment acted between two CPU steps of the budget (00_scope R7). -/
  | acted
  /-- The line is rendered: the environment's side effects happen. -/
  | effects
  deriving DecidableEq, Repr

/-- Which agent moves (00_scope R6). -/
inductive Turn where
  /-- One CPU step (60_exceptions R870). -/
  | cpu
  /-- One renderer step, for a visible line (47_compositor R700). -/
  | render (line : Fin 160)
  /-- One environment action. -/
  | env (action : EnvAction)
  /-- The frame driver goes on to the next scanline (70_reset_and_hazards R950). -/
  | endLine
  deriving DecidableEq, Repr

/-- The machine. -/
structure State where
  /-- The stored general registers (10_state R51). -/
  regs : Vector Word 30
  /-- CPSR (10_state R57). -/
  cpsr : Cpsr
  /-- The SPSRs (10_state R59). -/
  spsrs : Spsrs
  /-- PC: the address of the next instruction, or of the executing one (10_state R60). -/
  pc : Word
  /-- The cycle counter (10_state R69). -/
  cycles : Nat
  /-- Set by LDM with S = 1 and without r15 (10_state R68 (f), 70_reset_and_hazards R942). -/
  userBankHazard : Bool
  /-- The bytes of the memory regions, by storage key, keys rising (20_memory R160 to R168). Log 4, log 5. -/
  mem : List Host.Cell
  /-- The core's I/O granules (20_memory R186). -/
  io : IoFile
  /-- BG2X_int (10_state R71). -/
  bg2xInt : BitVec 28
  /-- BG2Y_int. -/
  bg2yInt : BitVec 28
  /-- BG3X_int. -/
  bg3xInt : BitVec 28
  /-- BG3Y_int. -/
  bg3yInt : BitVec 28
  /-- bg_line[k] (10_state R70). -/
  bgLine : Vector (Vector Half 240) 4
  /-- bg_present[k] (10_state R70). -/
  bgPresent : Vector Bool 4
  /-- obj_line (10_state R70). -/
  objLine : Vector Half 240
  /-- obj_meta (10_state R70). -/
  objMeta : Vector Byte 240
  /-- The rows of the output frame rendered so far, by line, lines rising (47_compositor R701). Log 11. -/
  frame : List (Nat × Vector Rgb 240)
  /-- The scanline the frame driver is at, of 228 (70_reset_and_hazards R950). Log 8. -/
  line : Fin 228
  /-- How far that scanline is. Log 8. -/
  phase : LinePhase
  /-- Writes delivered to the environment, oldest first (20_memory R196). Log 9. -/
  envEvents : List (Nat × Half)
  /-- The turns to come, the next one first (00_scope R6, R7). Log 8. -/
  schedule : List Turn
  /-- The model's counter at which the free values are read (00_scope R14 draw()). Log 6. -/
  draws : Nat
  /-- The model's counter of resets, so that memory draws are fresh after each (70_reset_and_hazards R921). Log 12. -/
  powerOns : Nat
  deriving DecidableEq, Repr

/-- Faults: states the source calls fatal (00_scope R14). -/
inductive Fault where
  /-- A fetch outside BIOS, EWRAM, IWRAM and cartridge ROM (20_memory R158). Raised by a CPU step. Safe. -/
  | fetchFromUnexecutableRegion
  deriving DecidableEq, Repr

/-- Refusals: the forms 93_implementation_defined 1.2 gives no meaning. All are safe: the machine stops. -/
inductive Refusal where
  /-- An instruction of the table without a meaning. Raised by no meaning of this model. Safe. -/
  | notModelled (mnemonic : String)
  /-- An ARM should-be-zero or should-be-one field is violated (30_encoding R254). Raised by ARM instructions. Safe. -/
  | sbzSboViolation
  /-- A halfword-class store with SH = 10 or 11 (30_encoding R252). Raised by STRH_dspace. Safe. -/
  | halfwordLoadStoreDoubleSpace
  /-- An ARM-state PC write that is not word aligned (41 R408, R409; 44 R552; 45 R607). Raised by data processing and BX. Safe. -/
  | unalignedArmPcWrite
  /-- MRS with Rd = 15 (41 R416). Safe. -/
  | mrsToPc
  /-- MSR with Rm = 15 (41 R417). Safe. -/
  | msrFromPc
  /-- MSR that would change T (41 R417). Safe. -/
  | msrChangesT
  /-- A mode field that is no mode of 10_state R53 (41 R417, 60 R880). Raised by MSR and the restores. Safe. -/
  | illegalMode
  /-- An SPSR access in User or System mode (10_state R59). Safe. -/
  | noSpsrInMode
  /-- A multiply with forbidden operands (42 R456, 45 R609). Safe. -/
  | multiplyOperands
  /-- SWP or SWPB with forbidden operands (42 R462). Safe. -/
  | swapOperands
  /-- A register offset r15 (43 R480, R490). Safe. -/
  | loadStoreOffsetPc
  /-- Writeback to r15 (43 R480, R490). Safe. -/
  | writebackPc
  /-- A load with writeback whose base is its destination (43 R480, R490). Safe. -/
  | loadWritebackSameRegister
  /-- LDR into r15 from a misaligned address (43 R483). Safe. -/
  | unalignedPcLoad
  /-- LDRB into r15 (43 R484). Safe. -/
  | byteLoadToPc
  /-- STRB of r15 (43 R485). Safe. -/
  | byteStoreFromPc
  /-- A halfword transfer with P = 0 and W = 1 (43 R490). Safe. -/
  | halfwordPostIndexW
  /-- A halfword transfer of r15 (43 R490). Safe. -/
  | halfwordTransferPc
  /-- A halfword transfer at an odd address (43 R495). Safe. -/
  | unalignedHalfword
  /-- A block transfer of no register (43 R510, 46 R657 to R662). Safe. -/
  | emptyRegisterList
  /-- LDM or STM with base r15 (43 R510). Safe. -/
  | blockTransferBasePc
  /-- A user-bank transfer in User or System mode (43 R511). Safe. -/
  | userBankInUserMode
  /-- LDM with writeback and the base in the list (43 R514). Safe. -/
  | ldmWritebackBaseInList
  /-- STM or STMIA with writeback and the base in the list, not lowest (43 R514, 46 R661). Safe. -/
  | stmWritebackBaseNotFirst
  /-- Writeback in a user-bank transfer (43 R514). Safe. -/
  | userBankWriteback
  /-- A Thumb high-register operation on two low registers (45 R603 to R605). Safe. -/
  | hiRegOpLowRegisters
  /-- Thumb BX with H1 = 1 or bits 2..0 not 0 (45 R607). Safe. -/
  | thumbBxFields
  /-- A 16-bit or 32-bit access to cartridge SRAM (20_memory R168). Raised by loads, stores and DMA. Safe. -/
  | sramWideAccess
  /-- A store into the next two instruction slots (70 R941). Raised by stores and DMA. Safe. -/
  | prefetchWindowWrite
  /-- A banked register accessed right after a user-bank LDM (70 R942). Raised by a CPU step. Safe. -/
  | bankedAccessAfterUserLdm
  /-- A turn the order within a scanline does not allow (70 R950; log 8). Raised by renderer and end-of-line turns. Safe. -/
  | frameOrder
  /-- A line rendered with DISPCNT mode 6 or 7 (48 R760). Raised by a renderer step. Safe. -/
  | bgMode67
  /-- A sprite with a prohibited attribute (49 R823). Raised by a renderer step. Safe. -/
  | objProhibitedAttribute
  deriving DecidableEq, Repr

/-- CPSR after reset (10_state R73): Supervisor, I = 1, T = 0; the flags are DESIGN CHOICE 0 (log 2). -/
def Cpsr.reset : Cpsr :=
  { n := false, z := false, c := false, v := false, i := true, t := false, mode := .svc }

/-- The I/O granules after reset (20_memory R199): 0. What the environment owns is DESIGN CHOICE: KEYINPUT "every key
released", VCOUNT and bits 2..0 of DISPSTAT 0 (log 10). -/
def IoFile.reset : IoFile := (Vector.replicate 45 0#16).set IoReg.keyinput.idx 0x03FF#16

/-- The machine right after the first reset (10_state R73, 20_memory R199, 70_reset_and_hazards R920). General
registers and SPSRs are DESIGN CHOICE 0 (log 1), line buffers DESIGN CHOICE 0 (log 11), the scanline DESIGN CHOICE 0
(log 8). -/
def State.reset : State where
  regs := Vector.replicate 30 0#32
  cpsr := Cpsr.reset
  spsrs := { fiq := 0#32, irq := 0#32, svc := 0#32, abt := 0#32, und := 0#32 }
  pc := 0#32
  cycles := 0
  userBankHazard := false
  mem := []
  io := IoFile.reset
  bg2xInt := 0#28
  bg2yInt := 0#28
  bg3xInt := 0#28
  bg3yInt := 0#28
  bgLine := Vector.replicate 4 (Vector.replicate 240 0#16)
  bgPresent := Vector.replicate 4 false
  objLine := Vector.replicate 240 0#16
  objMeta := Vector.replicate 240 0#8
  frame := []
  line := 0
  phase := .budget
  envEvents := []
  schedule := []
  draws := 0
  powerOns := 0

end Sys2Proof.Machine
end

