-- ==== Sys2Proof/Machine/Io.lean ====
section
/-! DEFINITION. Machine/Io.lean: the I/O register page (20_memory R163, R185 to R198). -/

namespace Sys2Proof.Machine

/-! ### The table of R186 -/

/-- The offset of a granule in the I/O page (20_memory R186). -/
def IoReg.offset : IoReg → Nat
  | .dispcnt => 0x000
  | .dispstat => 0x004
  | .vcount => 0x006
  | .bg0cnt => 0x008
  | .bg1cnt => 0x00A
  | .bg2cnt => 0x00C
  | .bg3cnt => 0x00E
  | .bg0hofs => 0x010
  | .bg0vofs => 0x012
  | .bg1hofs => 0x014
  | .bg1vofs => 0x016
  | .bg2hofs => 0x018
  | .bg2vofs => 0x01A
  | .bg3hofs => 0x01C
  | .bg3vofs => 0x01E
  | .bg2pa => 0x020
  | .bg2pb => 0x022
  | .bg2pc => 0x024
  | .bg2pd => 0x026
  | .bg2xl => 0x028
  | .bg2xh => 0x02A
  | .bg2yl => 0x02C
  | .bg2yh => 0x02E
  | .bg3pa => 0x030
  | .bg3pb => 0x032
  | .bg3pc => 0x034
  | .bg3pd => 0x036
  | .bg3xl => 0x038
  | .bg3xh => 0x03A
  | .bg3yl => 0x03C
  | .bg3yh => 0x03E
  | .win0h => 0x040
  | .win1h => 0x042
  | .win0v => 0x044
  | .win1v => 0x046
  | .winin => 0x048
  | .winout => 0x04A
  | .mosaic => 0x04C
  | .bldcnt => 0x050
  | .bldalpha => 0x052
  | .bldy => 0x054
  | .keyinput => 0x130
  | .ie => 0x200
  | .if_ => 0x202
  | .ime => 0x208

/-- rmask (20_memory R186). -/
def IoReg.readMask : IoReg → Half
  | .dispcnt => 0xFFF7#16
  | .dispstat => 0xFF3F#16
  | .vcount => 0x00FF#16
  | .bg0cnt => 0xDFCF#16
  | .bg1cnt => 0xDFCF#16
  | .bg2cnt => 0xFFCF#16
  | .bg3cnt => 0xFFCF#16
  | .bg0hofs => 0x0000#16
  | .bg0vofs => 0x0000#16
  | .bg1hofs => 0x0000#16
  | .bg1vofs => 0x0000#16
  | .bg2hofs => 0x0000#16
  | .bg2vofs => 0x0000#16
  | .bg3hofs => 0x0000#16
  | .bg3vofs => 0x0000#16
  | .bg2pa => 0x0000#16
  | .bg2pb => 0x0000#16
  | .bg2pc => 0x0000#16
  | .bg2pd => 0x0000#16
  | .bg2xl => 0x0000#16
  | .bg2xh => 0x0000#16
  | .bg2yl => 0x0000#16
  | .bg2yh => 0x0000#16
  | .bg3pa => 0x0000#16
  | .bg3pb => 0x0000#16
  | .bg3pc => 0x0000#16
  | .bg3pd => 0x0000#16
  | .bg3xl => 0x0000#16
  | .bg3xh => 0x0000#16
  | .bg3yl => 0x0000#16
  | .bg3yh => 0x0000#16
  | .win0h => 0x0000#16
  | .win1h => 0x0000#16
  | .win0v => 0x0000#16
  | .win1v => 0x0000#16
  | .winin => 0x3F3F#16
  | .winout => 0x3F3F#16
  | .mosaic => 0x0000#16
  | .bldcnt => 0x3FFF#16
  | .bldalpha => 0x1F1F#16
  | .bldy => 0x0000#16
  | .keyinput => 0x03FF#16
  | .ie => 0x3FFF#16
  | .if_ => 0x3FFF#16
  | .ime => 0x0001#16

/-- wmask (20_memory R186). IF is write-1-to-clear on these bits (R190). -/
def IoReg.writeMask : IoReg → Half
  | .dispcnt => 0xFFF7#16
  | .dispstat => 0xFF38#16
  | .vcount => 0x0000#16
  | .bg0cnt => 0xDFCF#16
  | .bg1cnt => 0xDFCF#16
  | .bg2cnt => 0xFFCF#16
  | .bg3cnt => 0xFFCF#16
  | .bg0hofs => 0x01FF#16
  | .bg0vofs => 0x01FF#16
  | .bg1hofs => 0x01FF#16
  | .bg1vofs => 0x01FF#16
  | .bg2hofs => 0x01FF#16
  | .bg2vofs => 0x01FF#16
  | .bg3hofs => 0x01FF#16
  | .bg3vofs => 0x01FF#16
  | .bg2pa => 0xFFFF#16
  | .bg2pb => 0xFFFF#16
  | .bg2pc => 0xFFFF#16
  | .bg2pd => 0xFFFF#16
  | .bg2xl => 0xFFFF#16
  | .bg2xh => 0x0FFF#16
  | .bg2yl => 0xFFFF#16
  | .bg2yh => 0x0FFF#16
  | .bg3pa => 0xFFFF#16
  | .bg3pb => 0xFFFF#16
  | .bg3pc => 0xFFFF#16
  | .bg3pd => 0xFFFF#16
  | .bg3xl => 0xFFFF#16
  | .bg3xh => 0x0FFF#16
  | .bg3yl => 0xFFFF#16
  | .bg3yh => 0x0FFF#16
  | .win0h => 0xFFFF#16
  | .win1h => 0xFFFF#16
  | .win0v => 0xFFFF#16
  | .win1v => 0xFFFF#16
  | .winin => 0x3F3F#16
  | .winout => 0x3F3F#16
  | .mosaic => 0xFFFF#16
  | .bldcnt => 0x3FFF#16
  | .bldalpha => 0x1F1F#16
  | .bldy => 0x001F#16
  | .keyinput => 0x0000#16
  | .ie => 0x3FFF#16
  | .if_ => 0x3FFF#16
  | .ime => 0x0001#16

/-- The granule of R186 at an even offset, if there is one. -/
def ioRegAt (o : Nat) : Option IoReg :=
  match o with
  | 0x000 => some .dispcnt
  | 0x004 => some .dispstat
  | 0x006 => some .vcount
  | 0x008 => some .bg0cnt
  | 0x00A => some .bg1cnt
  | 0x00C => some .bg2cnt
  | 0x00E => some .bg3cnt
  | 0x010 => some .bg0hofs
  | 0x012 => some .bg0vofs
  | 0x014 => some .bg1hofs
  | 0x016 => some .bg1vofs
  | 0x018 => some .bg2hofs
  | 0x01A => some .bg2vofs
  | 0x01C => some .bg3hofs
  | 0x01E => some .bg3vofs
  | 0x020 => some .bg2pa
  | 0x022 => some .bg2pb
  | 0x024 => some .bg2pc
  | 0x026 => some .bg2pd
  | 0x028 => some .bg2xl
  | 0x02A => some .bg2xh
  | 0x02C => some .bg2yl
  | 0x02E => some .bg2yh
  | 0x030 => some .bg3pa
  | 0x032 => some .bg3pb
  | 0x034 => some .bg3pc
  | 0x036 => some .bg3pd
  | 0x038 => some .bg3xl
  | 0x03A => some .bg3xh
  | 0x03C => some .bg3yl
  | 0x03E => some .bg3yh
  | 0x040 => some .win0h
  | 0x042 => some .win1h
  | 0x044 => some .win0v
  | 0x046 => some .win1v
  | 0x048 => some .winin
  | 0x04A => some .winout
  | 0x04C => some .mosaic
  | 0x050 => some .bldcnt
  | 0x052 => some .bldalpha
  | 0x054 => some .bldy
  | 0x130 => some .keyinput
  | 0x200 => some .ie
  | 0x202 => some .if_
  | 0x208 => some .ime
  | _ => none

/-- Who answers for a granule (20_memory R186, R196, R198). -/
inductive IoOwner where
  /-- A granule of R186. -/
  | core (r : IoReg)
  /-- An environment-owned register (R196). -/
  | environment
  /-- An unused offset (R198). -/
  | unused
  deriving DecidableEq, Repr

/-- The environment-owned even offsets (20_memory R196): sound, DMA, timers, serial, KEYCNT, WAITCNT,
POSTFLG/HALTCNT. -/
def environmentOwned (o : Nat) : Bool :=
  (decide (0x060 ≤ o) && decide (o ≤ 0x0DE)) ||
  (decide (0x100 ≤ o) && decide (o ≤ 0x10E)) ||
  (decide (0x120 ≤ o) && decide (o ≤ 0x12E)) ||
  decide (o = 0x132) ||
  (decide (0x134 ≤ o) && decide (o ≤ 0x15E)) ||
  decide (o = 0x204) ||
  decide (o = 0x300)

/-- The owner of the granule at an even offset. -/
def ioOwner (o : Nat) : IoOwner :=
  match ioRegAt o with
  | some r => .core r
  | none => if environmentOwned o then .environment else .unused

/-! ### Stored values -/

/-- raw[o] of a granule of R186. -/
def State.ioRaw (s : State) (r : IoReg) : Half := s.io[r.idx]

/-- The state with raw[o] replaced. -/
def State.setIoRaw (s : State) (r : IoReg) (v : Half) : State := { s with io := s.io.set r.idx v }

/-- The 28-bit value two granules of a reference register hold (20_memory R192). -/
def affineReference (low high : Half) : BitVec 28 := high.extractLsb' 0 12 ++ low

/-- The side effect of a write to a granule of BG2X, BG2Y, BG3X or BG3Y (20_memory R174, R192; 48_bg_producers R772):
the internal register is reloaded with the whole stored value. -/
def State.reloadAffine (s : State) (r : IoReg) : State :=
  match r with
  | .bg2xl | .bg2xh => { s with bg2xInt := affineReference (s.ioRaw .bg2xl) (s.ioRaw .bg2xh) }
  | .bg2yl | .bg2yh => { s with bg2yInt := affineReference (s.ioRaw .bg2yl) (s.ioRaw .bg2yh) }
  | .bg3xl | .bg3xh => { s with bg3xInt := affineReference (s.ioRaw .bg3xl) (s.ioRaw .bg3xh) }
  | .bg3yl | .bg3yh => { s with bg3yInt := affineReference (s.ioRaw .bg3yl) (s.ioRaw .bg3yh) }
  | _ => s

/-! ### Access (20_memory R185) -/

/-- `io_read16(o)` at an even offset: the readable bits of a core granule, a draw for the environment's registers
(R196), open bus for an unused offset (R198, R170). -/
def State.ioRead16 (s : State) (o : Nat) : Half :=
  match ioOwner o with
  | .core r => s.ioRaw r &&& r.readMask
  | .environment => Config.environmentRegister s.draws o
  | .unused => Config.openBus s.draws (0x04000000 + o + 1) ++ Config.openBus s.draws (0x04000000 + o)

/-- `io_read(o, 1)`: the byte of the granule that offset `o` lies in. -/
def State.ioReadByte (s : State) (o : Nat) : Byte :=
  let h := s.ioRead16 (o - o % 2)
  if o % 2 = 0 then h.extractLsb' 0 8 else h.extractLsb' 8 8

/-- The value a core granule holds after a 16-bit write: IF is write-1-to-clear (R190), the others take the writable
bits of the value and keep the rest. -/
def ioMerged (r : IoReg) (old v : Half) : Half :=
  match r with
  | .if_ => old &&& ~~~(v &&& 0x3FFF#16)
  | _ => (old &&& ~~~r.writeMask) ||| (v &&& r.writeMask)

/-- `io_write16(o, v)` at an even offset. -/
def State.ioWrite16 (s : State) (o : Nat) (v : Half) : State :=
  match ioOwner o with
  | .core r => (s.setIoRaw r (ioMerged r (s.ioRaw r) v)).reloadAffine r
  | .environment => { s with envEvents := s.envEvents ++ [(o, v)] }
  | .unused => s

/-- `merge(h, b, k)`: one byte of a halfword replaced. -/
def mergeByte (h : Half) (b : Byte) (k : Nat) : Half :=
  if k = 0 then h.extractLsb' 8 8 ++ b else b ++ h.extractLsb' 0 8

/-- The stored halfword a byte write merges into: 0 for IF, so that the other byte clears nothing; the drawn value for
an environment register, which has no stored value (log 9). -/
def State.ioMergeBase (s : State) (o : Nat) : Half :=
  match ioOwner o with
  | .core .if_ => 0#16
  | .core r => s.ioRaw r
  | .environment => Config.environmentRegister s.draws o
  | .unused => 0#16

/-- `io_write(o, 1, b)`. -/
def State.ioWrite8 (s : State) (o : Nat) (b : Byte) : State :=
  s.ioWrite16 (o - o % 2) (mergeByte (s.ioMergeBase (o - o % 2)) b (o % 2))

/-- `io_write(o, 4, v)` at a multiple of 4: the low granule, then the high one. -/
def State.ioWrite32 (s : State) (o : Nat) (v : Word) : State :=
  (s.ioWrite16 o (v.extractLsb' 0 16)).ioWrite16 (o + 2) (v.extractLsb' 16 16)

end Sys2Proof.Machine
end

