-- ==== Sys2Proof/Machine/Memory.lean ====
section
/-! DEFINITION. Machine/Memory.lean: the memory regions and their storage (20_memory R152, R159 to R170, R199).
One storage byte has one key; every mirror of it folds to that key. -/

namespace Sys2Proof.Machine

/-! ### The list of bytes -/

/-- The byte listed at a key, if one is listed. -/
def Memory.get? : List Host.Cell → Nat → Option Byte
  | [], _ => none
  | (a, b) :: m, k => if k < a then none else if k = a then some b else Memory.get? m k

/-- Lists byte `v` at key `k`, keeping the keys rising. -/
def Memory.set : List Host.Cell → Nat → Byte → List Host.Cell
  | [], k, v => [(k, v)]
  | (a, b) :: m, k, v =>
    if k < a then (k, v) :: (a, b) :: m else if k = a then (k, v) :: m else (a, b) :: Memory.set m k v

/-- Keys rise strictly. -/
def Memory.rising : List Host.Cell → Bool
  | [] => true
  | [_] => true
  | (a, _) :: (b, y) :: m => decide (a < b) && Memory.rising ((b, y) :: m)

/-- The key names a storage byte: BIOS, EWRAM, IWRAM, palette, VRAM, OAM, ROM or SRAM (20_memory R159 to R168). -/
def isStorageKey (k : Nat) : Bool :=
  decide (k < 0x4000) ||
  (decide (0x02000000 ≤ k) && decide (k < 0x02040000)) ||
  (decide (0x03000000 ≤ k) && decide (k < 0x03008000)) ||
  (decide (0x05000000 ≤ k) && decide (k < 0x05000400)) ||
  (decide (0x06000000 ≤ k) && decide (k < 0x06018000)) ||
  (decide (0x07000000 ≤ k) && decide (k < 0x07000400)) ||
  (decide (0x08000000 ≤ k) && decide (k < 0x0A000000)) ||
  (decide (0x0E000000 ≤ k) && decide (k < 0x0E010000))

/-- The canonical form of the memory: keys rise strictly and every key names a storage byte. -/
def Memory.wf (m : List Host.Cell) : Bool := Memory.rising m && m.all (fun c => isStorageKey c.1)

/-! ### Regions -/

/-- The regions of 20_memory R152. -/
inductive Region where
  | bios | ewram | iwram | io | palette | vram | oam | rom | sram | unmapped
  deriving DecidableEq, Repr

/-- Region decoding (20_memory R152, R160, R163, R169): bits 27..24 select when bits 31..28 are 0. -/
def regionOf (a : Word) : Region :=
  match (a.extractLsb' 24 8).toNat with
  | 0x0 => if a.toNat < 0x00004000 then .bios else .unmapped
  | 0x2 => .ewram
  | 0x3 => .iwram
  | 0x4 => if a.toNat < 0x04000400 then .io else .unmapped
  | 0x5 => .palette
  | 0x6 => .vram
  | 0x7 => .oam
  | 0x8 => .rom
  | 0x9 => .rom
  | 0xA => .rom
  | 0xB => .rom
  | 0xC => .rom
  | 0xD => .rom
  | 0xE => .sram
  | 0xF => .sram
  | _ => .unmapped

/-- The VRAM offset of an address (20_memory R165): 96 KiB folded into 128 KiB. -/
def vramOffset (a : Nat) : Nat :=
  let o := a % 0x20000
  if 0x18000 ≤ o then o - 0x8000 else o

/-- The key of an address of a region (20_memory R160 to R168): the offset of the region's rule, above the region's
base. For I/O it is the address of the register; an unmapped address names no storage and keeps its number. -/
def keyIn (r : Region) (a : Nat) : Nat :=
  match r with
  | .bios => a
  | .ewram => 0x02000000 + a % 0x40000
  | .iwram => 0x03000000 + a % 0x8000
  | .io => a
  | .palette => 0x05000000 + a % 0x400
  | .vram => 0x06000000 + vramOffset a
  | .oam => 0x07000000 + a % 0x400
  | .rom => 0x08000000 + a % 0x2000000
  | .sram => 0x0E000000 + a % 0x10000
  | .unmapped => a

/-- The key of an address. -/
def keyOf (a : Word) : Nat := keyIn (regionOf a) a.toNat

/-- What an unlisted storage byte reads as (20_memory R160, R167, R168, R199): the BIOS image; the cartridge image, or
open bus past its end; the SRAM image; else the byte drawn at the last reset. Log 4. -/
def unlistedByte (draws powerOns key : Nat) : Byte :=
  if key < 0x4000 then Config.biosImage key
  else if 0x08000000 ≤ key ∧ key < 0x0A000000 then
    (if key - 0x08000000 < Config.romSize.val then Config.romImage (key - 0x08000000)
      else Config.openBus draws key)
  else if 0x0E000000 ≤ key then Config.sramInit (key - 0x0E000000)
  else Config.resetByte powerOns key

/-- The storage byte of a key. -/
def State.memByte (s : State) (key : Nat) : Byte :=
  match Memory.get? s.mem key with
  | some b => b
  | none => unlistedByte s.draws s.powerOns key

/-- The state with a storage byte written. -/
def State.setMemByte (s : State) (key : Nat) (b : Byte) : State := { s with mem := Memory.set s.mem key b }

/-- Byte `o` of the VRAM array (48_bg_producers R762); past the end of the array, a free value (log 17). -/
def State.vram8 (s : State) (o : Nat) : Byte :=
  if o < 0x18000 then s.memByte (0x06000000 + o) else Config.vramOutside s.draws o

/-- `vram16` (48_bg_producers R762). -/
def State.vram16 (s : State) (o : Nat) : Half := s.vram8 (o + 1) ++ s.vram8 o

/-- A halfword of palette RAM at byte offset `o` (20_memory R164). -/
def State.paletteHalf (s : State) (o : Nat) : Half :=
  s.memByte (0x05000000 + (o + 1) % 0x400) ++ s.memByte (0x05000000 + o % 0x400)

/-- A halfword of OAM at byte offset `o` (20_memory R166). -/
def State.oamHalf (s : State) (o : Nat) : Half :=
  s.memByte (0x07000000 + (o + 1) % 0x400) ++ s.memByte (0x07000000 + o % 0x400)

/-- The regions a fetch is admitted from (20_memory R158). -/
def executable (a : Word) : Bool :=
  match regionOf a with
  | .bios => true
  | .ewram => true
  | .iwram => true
  | .rom => true
  | _ => false

end Sys2Proof.Machine
end

