-- ==== Sys2Proof/Machine/Background.lean ====
section
/-! DEFINITION. Machine/Background.lean: the background producers (48_bg_producers). -/

namespace Sys2Proof.Machine

/-! ### Register fields (20_memory R187, R189, R191, R192, R194) -/

/-- DISPCNT.BGMODE. -/
def State.bgMode (s : State) : Nat := ((s.ioRaw .dispcnt).extractLsb' 0 3).toNat

/-- A bit of DISPCNT. -/
def State.dispcntBit (s : State) (i : Nat) : Bool := (s.ioRaw .dispcnt).getLsbD i

/-- DISPCNT.BGk_EN. -/
def State.bgEnabled (s : State) (k : Fin 4) : Bool := s.dispcntBit (8 + k.val)

/-- BGkCNT. -/
def State.bgCnt (s : State) (k : Fin 4) : Half :=
  match k with
  | 0 => s.ioRaw .bg0cnt
  | 1 => s.ioRaw .bg1cnt
  | 2 => s.ioRaw .bg2cnt
  | 3 => s.ioRaw .bg3cnt

/-- BGkHOFS, 9 bits. -/
def State.bgHofs (s : State) (k : Fin 4) : Nat :=
  match k with
  | 0 => ((s.ioRaw .bg0hofs).extractLsb' 0 9).toNat
  | 1 => ((s.ioRaw .bg1hofs).extractLsb' 0 9).toNat
  | 2 => ((s.ioRaw .bg2hofs).extractLsb' 0 9).toNat
  | 3 => ((s.ioRaw .bg3hofs).extractLsb' 0 9).toNat

/-- BGkVOFS, 9 bits. -/
def State.bgVofs (s : State) (k : Fin 4) : Nat :=
  match k with
  | 0 => ((s.ioRaw .bg0vofs).extractLsb' 0 9).toNat
  | 1 => ((s.ioRaw .bg1vofs).extractLsb' 0 9).toNat
  | 2 => ((s.ioRaw .bg2vofs).extractLsb' 0 9).toNat
  | 3 => ((s.ioRaw .bg3vofs).extractLsb' 0 9).toNat

/-- CHARBASE * 0x4000. -/
def charBase (cnt : Half) : Nat := (cnt.extractLsb' 2 2).toNat * 0x4000

/-- SCREENBASE * 0x800. -/
def screenBase (cnt : Half) : Nat := (cnt.extractLsb' 8 5).toNat * 0x800

/-- SIZE. -/
def bgSize (cnt : Half) : Nat := (cnt.extractLsb' 14 2).toNat

/-- The BG mosaic sizes (48_bg_producers R763): 1 when the layer's mosaic bit is 0. -/
def State.bgMosaicH (s : State) (k : Fin 4) : Nat :=
  if (s.bgCnt k).getLsbD 6 then ((s.ioRaw .mosaic).extractLsb' 0 4).toNat + 1 else 1

/-- The vertical BG mosaic size (48_bg_producers R763). -/
def State.bgMosaicV (s : State) (k : Fin 4) : Nat :=
  if (s.bgCnt k).getLsbD 6 then ((s.ioRaw .mosaic).extractLsb' 4 4).toNat + 1 else 1

/-- The affine registers of BG2 or BG3 (20_memory R192, 10_state R71). -/
structure AffineRegs where
  pa : Half
  pb : Half
  pc : Half
  pd : Half
  x : BitVec 28
  y : BitVec 28
  deriving DecidableEq, Repr

/-- The affine registers of BG2. -/
def State.affine2 (s : State) : AffineRegs :=
  { pa := s.ioRaw .bg2pa, pb := s.ioRaw .bg2pb, pc := s.ioRaw .bg2pc, pd := s.ioRaw .bg2pd,
    x := s.bg2xInt, y := s.bg2yInt }

/-- The affine registers of BG3. -/
def State.affine3 (s : State) : AffineRegs :=
  { pa := s.ioRaw .bg3pa, pb := s.ioRaw .bg3pb, pc := s.ioRaw .bg3pc, pd := s.ioRaw .bg3pd,
    x := s.bg3xInt, y := s.bg3yInt }

/-! ### Colours and VRAM (48_bg_producers R761, R762) -/

/-- `pal(i)`: a background palette colour with the opaque bit forced. -/
def State.bgColour (s : State) (i : Nat) : Half := s.paletteHalf (2 * i) ||| 0x8000#16

/-- A palette index as a pixel: index 0 is transparent. -/
def State.indexedPixel (s : State) (transparent : Bool) (i : Nat) : Half := if transparent then 0#16 else s.bgColour i

/-- `vram8` of the tile modes: 0 from offset 0x10000 on (48_bg_producers R762). -/
def State.tileByte (s : State) (o : Nat) : Byte := if 0x10000 ≤ o then 0#8 else s.vram8 o

/-- `vram16` of the tile modes. -/
def State.tileHalf (s : State) (o : Nat) : Half := s.tileByte (o + 1) ++ s.tileByte o

/-! ### Text layers (48_bg_producers R764 to R768) -/

/-- Width of a text layer (48_bg_producers R764). -/
def textWidth (size : Nat) : Nat := if size % 2 = 1 then 512 else 256

/-- Height of a text layer (48_bg_producers R764). -/
def textHeight (size : Nat) : Nat := if 2 ≤ size then 512 else 256

/-- The offset of the map entry of a layer pixel (48_bg_producers R765). -/
def textMapOffset (cnt : Half) (sx sy : Nat) : Nat :=
  let tx := sx / 8
  let ty := sy / 8
  let block := tx / 32 + (ty / 32) * (if bgSize cnt = 3 then 2 else 1)
  screenBase cnt + block * 0x800 + ((ty % 32) * 32 + tx % 32) * 2

/-- A 4-bpp or 8-bpp tile pixel of map entry `e` (48_bg_producers R766, R767, R768). -/
def State.tilePixel (s : State) (cnt e : Half) (px py : Nat) : Half :=
  let tile := (e.extractLsb' 0 10).toNat
  if cnt.getLsbD 7 then
    let idx := (s.tileByte (charBase cnt + tile * 64 + py * 8 + px)).toNat
    s.indexedPixel (decide (idx = 0)) idx
  else
    let b := s.tileByte (charBase cnt + tile * 32 + py * 4 + px / 2)
    let idx := (if px % 2 = 0 then b.extractLsb' 0 4 else b.extractLsb' 4 4).toNat
    s.indexedPixel (decide (idx = 0)) ((e.extractLsb' 12 4).toNat * 16 + idx)

/-- The pixel of text layer k at screen x on line y, mosaic apart (48_bg_producers R765). -/
def State.textPixel (s : State) (k : Fin 4) (x y : Nat) : Half :=
  let cnt := s.bgCnt k
  let sx := (x + s.bgHofs k) % textWidth (bgSize cnt)
  let sy := (y + s.bgVofs k) % textHeight (bgSize cnt)
  let e := s.tileHalf (textMapOffset cnt sx sy)
  let px := if e.getLsbD 10 then 7 - sx % 8 else sx % 8
  let py := if e.getLsbD 11 then 7 - sy % 8 else sy % 8
  s.tilePixel cnt e px py

/-! ### Affine and bitmap layers (48_bg_producers R763, R770, R779 to R782) -/

/-- The reference point of a line: moved back by `m` lines under vertical mosaic (48_bg_producers R763; log 18). -/
def AffineRegs.reference (r : AffineRegs) (m : Nat) : Int × Int :=
  ((r.x - BitVec.ofNat 28 m * r.pb.signExtend 28).toInt, (r.y - BitVec.ofNat 28 m * r.pd.signExtend 28).toInt)

/-- The integer texel coordinates at screen x (48_bg_producers R770). -/
def AffineRegs.texel (r : AffineRegs) (m x : Nat) : Int × Int :=
  (((r.reference m).1 + x * r.pa.toInt) / 256, ((r.reference m).2 + x * r.pc.toInt) / 256)

/-- Whether a texel is inside a w by h rectangle. -/
def insideRect (t : Int × Int) (w h : Nat) : Bool :=
  decide (0 ≤ t.1) && decide (t.1 < w) && decide (0 ≤ t.2) && decide (t.2 < h)

/-- The colour of a texel inside an affine layer (48_bg_producers R770). -/
def State.affineTexel (s : State) (cnt : Half) (size tx ty : Nat) : Half :=
  let tile := (s.tileByte (screenBase cnt + ty / 8 * (size / 8) + tx / 8)).toNat
  let idx := (s.tileByte (charBase cnt + tile * 64 + ty % 8 * 8 + tx % 8)).toNat
  s.indexedPixel (decide (idx = 0)) idx

/-- The pixel of an affine layer at screen x; `m` is the vertical mosaic step (48_bg_producers R770). -/
def State.affinePixel (s : State) (cnt : Half) (r : AffineRegs) (m x : Nat) : Half :=
  let size := 128 <<< bgSize cnt
  let t := r.texel m x
  if cnt.getLsbD 13 then s.affineTexel cnt size (t.1 % size).toNat (t.2 % size).toNat
  else if insideRect t size size then s.affineTexel cnt size t.1.toNat t.2.toNat
  else 0#16

/-- DISPCNT.FRAME as a VRAM offset (48_bg_producers R781). -/
def State.frameBase (s : State) : Nat := if s.dispcntBit 4 then 0xA000 else 0

/-- The pixel of BG2 in modes 3, 4 and 5 at screen x (48_bg_producers R779 to R782). -/
def State.bitmapPixel (s : State) (m x : Nat) : Half :=
  let t := s.affine2.texel m x
  let tx := t.1.toNat
  let ty := t.2.toNat
  if s.bgMode = 3 then
    if insideRect t 240 160 then s.vram16 ((ty * 240 + tx) * 2) ||| 0x8000#16 else 0#16
  else if s.bgMode = 4 then
    if insideRect t 240 160 then
      let idx := (s.vram8 (s.frameBase + ty * 240 + tx)).toNat
      s.indexedPixel (decide (idx = 0)) idx
    else 0#16
  else
    if insideRect t 160 128 then s.vram16 (s.frameBase + (ty * 160 + tx) * 2) ||| 0x8000#16 else 0#16

/-! ### Dispatch (48_bg_producers R760) -/

/-- The kinds of layer of R760. -/
inductive LayerKind where
  | text | affine | bitmap
  deriving DecidableEq, Repr

/-- The kind of layer k in a mode (48_bg_producers R760). -/
def layerKind (mode : Nat) (k : Fin 4) : Option LayerKind :=
  match mode, k with
  | 0, _ => some .text
  | 1, 0 => some .text
  | 1, 1 => some .text
  | 1, 2 => some .affine
  | 2, 2 => some .affine
  | 2, 3 => some .affine
  | 3, 2 => some .bitmap
  | 4, 2 => some .bitmap
  | 5, 2 => some .bitmap
  | _, _ => none

/-- The kind layer k is produced with: none when the mode lacks it or DISPCNT disables it. -/
def State.producedKind (s : State) (k : Fin 4) : Option LayerKind :=
  if s.bgEnabled k then layerKind s.bgMode k else none

/-- The pixel of layer k at screen x on line y, mosaic included (48_bg_producers R763). -/
def State.layerPixel (s : State) (kind : LayerKind) (k : Fin 4) (x y : Nat) : Half :=
  let mx := x - x % s.bgMosaicH k
  let m := y % s.bgMosaicV k
  match kind with
  | .text => s.textPixel k mx (y - m)
  | .affine => s.affinePixel (s.bgCnt k) (if k = 3 then s.affine3 else s.affine2) m mx
  | .bitmap => s.bitmapPixel m mx

/-- `produce_backgrounds(y)` (48_bg_producers R760): a layer that is not produced keeps its line. -/
def State.produceBackgrounds (s : State) (y : Nat) : State :=
  { s with
    bgPresent := Vector.ofFn fun k => (s.producedKind k).isSome
    bgLine := Vector.ofFn fun k =>
      match s.producedKind k with
      | some kind => Vector.ofFn fun (x : Fin 240) => s.layerPixel kind k x.val y
      | none => s.bgLine[k] }

/-! ### The affine reference registers (48_bg_producers R772) -/

/-- The latch at the start of a frame. -/
def State.latchAffine (s : State) : State :=
  { s with
    bg2xInt := affineReference (s.ioRaw .bg2xl) (s.ioRaw .bg2xh)
    bg2yInt := affineReference (s.ioRaw .bg2yl) (s.ioRaw .bg2yh)
    bg3xInt := affineReference (s.ioRaw .bg3xl) (s.ioRaw .bg3xh)
    bg3yInt := affineReference (s.ioRaw .bg3yl) (s.ioRaw .bg3yh) }

/-- The advance at the end of a line, modulo 2^28. -/
def State.advanceAffine (s : State) : State :=
  { s with
    bg2xInt := s.bg2xInt + (s.ioRaw .bg2pb).signExtend 28
    bg2yInt := s.bg2yInt + (s.ioRaw .bg2pd).signExtend 28
    bg3xInt := s.bg3xInt + (s.ioRaw .bg3pb).signExtend 28
    bg3yInt := s.bg3yInt + (s.ioRaw .bg3pd).signExtend 28 }

end Sys2Proof.Machine
end

