-- ==== Sys2Proof/Machine/Sprites.lean ====
section
/-! DEFINITION. Machine/Sprites.lean: the sprite producer (49_sprite_producer). -/

namespace Sys2Proof.Machine

/-- The three attribute halfwords of an OAM entry (49_sprite_producer R821, R822). -/
structure ObjAttr where
  attr0 : Half
  attr1 : Half
  attr2 : Half
  deriving DecidableEq, Repr

/-- OAM entry i (49_sprite_producer R821). -/
def State.objAttr (s : State) (i : Nat) : ObjAttr :=
  { attr0 := s.oamHalf (8 * i), attr1 := s.oamHalf (8 * i + 2), attr2 := s.oamHalf (8 * i + 4) }

/-! ### Fields (49_sprite_producer R822) -/

/-- AFFINE. -/
def ObjAttr.affine (a : ObjAttr) : Bool := a.attr0.getLsbD 8

/-- DOUBLE of an affine sprite. -/
def ObjAttr.double (a : ObjAttr) : Bool := a.affine && a.attr0.getLsbD 9

/-- Displayed (49_sprite_producer R824): not DISABLE. -/
def ObjAttr.displayed (a : ObjAttr) : Bool := a.affine || !a.attr0.getLsbD 9

/-- MODE. -/
def ObjAttr.mode (a : ObjAttr) : Nat := (a.attr0.extractLsb' 10 2).toNat

/-- MOSAIC. -/
def ObjAttr.mosaic (a : ObjAttr) : Bool := a.attr0.getLsbD 12

/-- COLOR8. -/
def ObjAttr.color8 (a : ObjAttr) : Bool := a.attr0.getLsbD 13

/-- SHAPE. -/
def ObjAttr.shape (a : ObjAttr) : Nat := (a.attr0.extractLsb' 14 2).toNat

/-- SIZE. -/
def ObjAttr.size (a : ObjAttr) : Nat := (a.attr1.extractLsb' 14 2).toNat

/-- The top edge. -/
def ObjAttr.top (a : ObjAttr) : Nat := (a.attr0.extractLsb' 0 8).toNat

/-- The left edge, signed. -/
def ObjAttr.left (a : ObjAttr) : Int := (a.attr1.extractLsb' 0 9).toInt

/-- PRIORITY. -/
def ObjAttr.priority (a : ObjAttr) : Nat := (a.attr2.extractLsb' 10 2).toNat

/-- Sprite dimensions (49_sprite_producer R823); SHAPE 3 has none. -/
def objSize (shape size : Nat) : Option (Nat × Nat) :=
  match shape, size with
  | 0, 0 => some (8, 8)
  | 0, 1 => some (16, 16)
  | 0, 2 => some (32, 32)
  | 0, 3 => some (64, 64)
  | 1, 0 => some (16, 8)
  | 1, 1 => some (32, 8)
  | 1, 2 => some (32, 16)
  | 1, 3 => some (64, 32)
  | 2, 0 => some (8, 16)
  | 2, 1 => some (8, 32)
  | 2, 2 => some (16, 32)
  | 2, 3 => some (32, 64)
  | _, _ => none

/-- `(w, h)`. -/
def ObjAttr.dims (a : ObjAttr) : Nat × Nat := (objSize a.shape a.size).getD (0, 0)

/-- `(bw, bh)` (49_sprite_producer R824). -/
def ObjAttr.box (a : ObjAttr) : Nat × Nat := if a.double then (2 * a.dims.1, 2 * a.dims.2) else a.dims

/-- `sy = (y - Y) mod 256` (49_sprite_producer R824). -/
def ObjAttr.row (a : ObjAttr) (y : Nat) : Nat := (y + 256 - a.top) % 256

/-- Whether line y is in the sprite's Y-range (49_sprite_producer R824). -/
def ObjAttr.covers (a : ObjAttr) (y : Nat) : Bool := decide (a.row y < a.box.2)

/-- Whether a renderer step refuses the sprite (49_sprite_producer R823; log 19): displayed with SHAPE 3, or with MODE 3,
displayed or not, on a line in its Y-range. -/
def ObjAttr.prohibited (a : ObjAttr) (y : Nat) : Bool :=
  (a.displayed && decide (a.shape = 3)) || (a.covers y && decide (a.mode = 3))

/-! ### Texels (49_sprite_producer R825 to R829) -/

/-- The OBJ mosaic sizes (49_sprite_producer R829): 1 when the sprite's mosaic bit is 0. -/
def State.objMosaic (s : State) (a : ObjAttr) : Nat × Nat :=
  if a.mosaic then
    (((s.ioRaw .mosaic).extractLsb' 8 4).toNat + 1, ((s.ioRaw .mosaic).extractLsb' 12 4).toNat + 1)
  else (1, 1)

/-- An affine parameter of group g: PA, PB, PC, PD for k = 0 to 3 (49_sprite_producer R821). -/
def State.objParam (s : State) (g k : Nat) : Int := (s.oamHalf (32 * g + 6 + 8 * k)).toInt

/-- Texel coordinates for box column sx and row sy; none outside an affine sprite's texture
(49_sprite_producer R825, R826). -/
def State.objTexel (s : State) (a : ObjAttr) (sx sy : Nat) : Option (Nat × Nat) :=
  let (w, h) := a.dims
  if a.affine then
    let g := (a.attr1.extractLsb' 9 5).toNat
    let dx : Int := (sx : Int) - ((a.box.1 / 2 : Nat) : Int)
    let dy : Int := (sy : Int) - ((a.box.2 / 2 : Nat) : Int)
    let tx : Int := (s.objParam g 0 * dx + s.objParam g 1 * dy) / 256 + ((w / 2 : Nat) : Int)
    let ty : Int := (s.objParam g 2 * dx + s.objParam g 3 * dy) / 256 + ((h / 2 : Nat) : Int)
    if insideRect (tx, ty) w h then some (tx.toNat, ty.toNat) else none
  else
    some (if a.attr1.getLsbD 12 then w - 1 - sx else sx, if a.attr1.getLsbD 13 then h - 1 - sy else sy)

/-- `(t * 32) mod 0x8000` of a texel's tile (49_sprite_producer R827). -/
def State.objTileOffset (s : State) (a : ObjAttr) (tx ty : Nat) : Nat :=
  let u := if a.color8 then 2 else 1
  let tile := (a.attr2.extractLsb' 0 10).toNat
  let t := if s.dispcntBit 6 then tile + (ty / 8 * (a.dims.1 / 8) + tx / 8) * u else tile + ty / 8 * 32 + tx / 8 * u
  t * 32 % 0x8000

/-- A sprite palette colour (49_sprite_producer R828). -/
def State.objColour (s : State) (i : Nat) : Half := s.paletteHalf (0x200 + 2 * i) ||| 0x8000#16

/-- The colour of a texel (49_sprite_producer R827, R828). -/
def State.objTexelColour (s : State) (a : ObjAttr) (tx ty : Nat) : Half :=
  let off := s.objTileOffset a tx ty
  let o := 0x10000 + off
  if decide (3 ≤ s.bgMode) && decide (off < 0x4000) then 0#16
  else if a.color8 then
    let idx := (s.vram8 (o + ty % 8 * 8 + tx % 8)).toNat
    if idx = 0 then 0#16 else s.objColour idx
  else
    let b := s.vram8 (o + ty % 8 * 4 + tx % 8 / 2)
    let idx := (if tx % 8 % 2 = 0 then b.extractLsb' 0 4 else b.extractLsb' 4 4).toNat
    if idx = 0 then 0#16 else s.objColour ((a.attr2.extractLsb' 12 4).toNat * 16 + idx)

/-- The screen column the sprite is sampled at: snapped down by the mosaic, but not left of the box
(49_sprite_producer R829; log 18). -/
def ObjAttr.sampledX (a : ObjAttr) (mh x : Nat) : Int := max ((x : Int) - ((x % mh : Nat) : Int)) a.left

/-- The colour of sprite `a` at (x, y): 0 where it draws nothing (49_sprite_producer R820, R824 to R829). -/
def State.objPixel (s : State) (a : ObjAttr) (x y : Nat) : Half :=
  let (mh, mv) := s.objMosaic a
  let sy := a.row y
  if a.displayed && a.covers y && decide (a.left ≤ (x : Int)) && decide ((x : Int) < a.left + (a.box.1 : Int)) then
    match s.objTexel a (a.sampledX mh x - a.left).toNat (sy - sy % mv) with
    | some (tx, ty) => s.objTexelColour a tx ty
    | none => 0#16
  else 0#16

/-! ### The line (49_sprite_producer R820) -/

/-- One entry of the OBJ line with its metadata (10_state R70). -/
structure ObjCell where
  colour : Half
  prio : BitVec 3
  window : Bool
  semi : Bool
  deriving DecidableEq, Repr

/-- The metadata byte (10_state R70): priority in bits 2..0, window flag in bit 3, semi-transparent flag in bit 4. -/
def ObjCell.metaByte (c : ObjCell) : Byte := 0#3 ++ BitVec.ofBool c.semi ++ BitVec.ofBool c.window ++ c.prio

/-- One sprite drawn on one entry (the body of the loop of 49_sprite_producer R820). -/
def ObjCell.draw (c : ObjCell) (a : ObjAttr) (colour : Half) : ObjCell :=
  let p := BitVec.ofNat 3 (a.priority + 1)
  if !colour.getLsbD 15 then c
  else if a.mode = 2 then { c with window := true }
  else if c.prio = 0#3 ∨ p < c.prio then { c with colour := colour, prio := p, semi := decide (a.mode = 1) }
  else c

/-- The entry at (x, y) after all 128 sprites in OAM order; empty when DISPCNT.OBJ_EN is 0. -/
def State.objCell (s : State) (x y : Nat) : ObjCell :=
  let empty : ObjCell := { colour := 0#16, prio := 0#3, window := false, semi := false }
  if s.dispcntBit 12 then
    (List.range 128).foldl (fun c i => c.draw (s.objAttr i) (s.objPixel (s.objAttr i) x y)) empty
  else empty

/-- Whether some sprite makes the renderer step refuse (49_sprite_producer R823). -/
def State.objRefused (s : State) (y : Nat) : Bool :=
  s.dispcntBit 12 && (List.range 128).any (fun i => (s.objAttr i).prohibited y)

/-- `produce_sprites(y)` (49_sprite_producer R820). -/
def State.produceSprites (s : State) (y : Nat) : State :=
  { s with
    objLine := Vector.ofFn fun (x : Fin 240) => (s.objCell x.val y).colour
    objMeta := Vector.ofFn fun (x : Fin 240) => (s.objCell x.val y).metaByte }

end Sys2Proof.Machine
end

