-- ==== Sys2Proof/Machine/Compositor.lean ====
section
/-! DEFINITION. Machine/Compositor.lean: windows, the priority walk, blending and colour expansion
(47_compositor R702 to R713). -/

namespace Sys2Proof.Machine

/-! ### Windows (47_compositor R702, R703) -/

/-- `in_range(a, lo, hi)`; `limit` is 240 for x and 160 for y. -/
def inRange (garbage : WindowGarbage) (limit a lo hi : Nat) : Bool :=
  if lo ≤ hi then decide (lo ≤ a) && decide (a < hi)
  else match garbage with
  | .wrap => decide (lo ≤ a) || decide (a < hi)
  | .clampHigh => decide (lo ≤ a) && decide (a < limit)

/-- `inside(H, V, x, y)`. -/
def insideWindow (h v : Half) (x y : Nat) : Bool :=
  inRange Config.windowGarbage 240 x (h.extractLsb' 8 8).toNat (h.extractLsb' 0 8).toNat &&
  inRange Config.windowGarbage 160 y (v.extractLsb' 8 8).toNat (v.extractLsb' 0 8).toNat

/-- The 6-bit control of the window a pixel lies in: layers in bits 4..0, blending in bit 5 (47_compositor R702). -/
def State.windowControl (s : State) (x : Fin 240) (y : Nat) : BitVec 6 :=
  if !s.dispcntBit 13 && !s.dispcntBit 14 && !s.dispcntBit 15 then 0b111111#6
  else if s.dispcntBit 13 && insideWindow (s.ioRaw .win0h) (s.ioRaw .win0v) x.val y then
    (s.ioRaw .winin).extractLsb' 0 6
  else if s.dispcntBit 14 && insideWindow (s.ioRaw .win1h) (s.ioRaw .win1v) x.val y then
    (s.ioRaw .winin).extractLsb' 8 6
  else if s.dispcntBit 15 && (s.objMeta[x]).getLsbD 3 then (s.ioRaw .winout).extractLsb' 8 6
  else (s.ioRaw .winout).extractLsb' 0 6

/-! ### The walk (47_compositor R704 to R708) -/

/-- The blend record of a pixel (47_compositor R705). Layers are 0..3 BGk, 4 OBJ, 5 backdrop. -/
structure BlendRecord where
  top : Half
  topLayer : Nat
  topSemi : Bool
  under : Option (Half × Nat)
  deriving DecidableEq, Repr

/-- The backdrop (47_compositor R704). -/
def State.backdrop (s : State) : Half := s.paletteHalf 0 ||| 0x8000#16

/-- The record a pixel starts with (47_compositor R705). -/
def State.freshRecord (s : State) : BlendRecord :=
  { top := s.backdrop, topLayer := 5, topSemi := false, under := none }

/-- `draw(L, px, semi)` (47_compositor R707). -/
def BlendRecord.draw (r : BlendRecord) (layer : Nat) (px : Half) (semi : Bool) : BlendRecord :=
  { top := px, topLayer := layer, topSemi := semi, under := some (r.top, r.topLayer) }

/-- BG k in the walk at priority p (47_compositor R706). -/
def State.walkBg (s : State) (ctl : BitVec 6) (x : Fin 240) (p : Nat) (k : Fin 4) (r : BlendRecord) : BlendRecord :=
  if s.bgPresent[k] && s.bgEnabled k && ctl.getLsbD k.val &&
      decide (((s.bgCnt k).extractLsb' 0 2).toNat = p) && (s.bgLine[k][x]).getLsbD 15 then
    r.draw k.val s.bgLine[k][x] false
  else r

/-- The OBJ pixel in the walk at priority p (47_compositor R706, R708). -/
def State.walkObj (s : State) (ctl : BitVec 6) (x : Fin 240) (p : Nat) (r : BlendRecord) : BlendRecord :=
  if s.dispcntBit 12 && ctl.getLsbD 4 && decide (((s.objMeta[x]).extractLsb' 0 3).toNat = p + 1) &&
      (s.objLine[x]).getLsbD 15 then
    r.draw 4 s.objLine[x] ((s.objMeta[x]).getLsbD 4)
  else r

/-- One priority of the walk: BG3, BG2, BG1, BG0, then OBJ (47_compositor R706). -/
def State.walkPriority (s : State) (ctl : BitVec 6) (x : Fin 240) (r : BlendRecord) (p : Nat) : BlendRecord :=
  s.walkObj ctl x p (s.walkBg ctl x p 0 (s.walkBg ctl x p 1 (s.walkBg ctl x p 2 (s.walkBg ctl x p 3 r))))

/-- The record after the walk: priorities 3, 2, 1, 0 (47_compositor R706). -/
def State.walk (s : State) (ctl : BitVec 6) (x : Fin 240) : BlendRecord :=
  [3, 2, 1, 0].foldl (s.walkPriority ctl x) s.freshRecord

/-! ### Blending (47_compositor R709 to R713) -/

/-- A channel of 5 bits as 8 bits (47_compositor R713). -/
def expandChannel (c : BitVec 5) : Nat := (c.toNat <<< 3) ||| (c.toNat >>> 2)

/-- The three channels of a pixel, 8 bits each (47_compositor R713). -/
def channels (px : Half) : Nat × Nat × Nat :=
  (expandChannel (px.extractLsb' 0 5), expandChannel (px.extractLsb' 5 5), expandChannel (px.extractLsb' 10 5))

/-- A triple of channels below 256. -/
def rgbOf (c : Nat × Nat × Nat) : Rgb :=
  { r := BitVec.ofNat 8 c.1, g := BitVec.ofNat 8 c.2.1, b := BitVec.ofNat 8 c.2.2 }

/-- `expand(c)` (47_compositor R713). -/
def expandPixel (px : Half) : Rgb := rgbOf (channels px)

/-- A function on each channel. -/
def mapChannels (f : Nat → Nat) (c : Nat × Nat × Nat) : Nat × Nat × Nat := (f c.1, f c.2.1, f c.2.2)

/-- One channel of the alpha blend (47_compositor R710). -/
def alphaChannel (eva evb a b : Nat) : Nat := min 255 ((a * eva + b * evb) / 16)

/-- `alpha(top, under)` (47_compositor R710). -/
def alphaPixel (eva evb : Nat) (top under : Half) : Rgb :=
  let a := channels top
  let b := channels under
  rgbOf (alphaChannel eva evb a.1 b.1, alphaChannel eva evb a.2.1 b.2.1, alphaChannel eva evb a.2.2 b.2.2)

/-- `brighten(top)` (47_compositor R711). -/
def brightenPixel (evy : Nat) (top : Half) : Rgb := rgbOf (mapChannels (fun c => c + (255 - c) * evy / 16) (channels top))

/-- `darken(top)` (47_compositor R711). -/
def darkenPixel (evy : Nat) (top : Half) : Rgb := rgbOf (mapChannels (fun c => c - c * evy / 16) (channels top))

/-- The factors EVA, EVB and EVY, each at most 16 (20_memory R195, 47_compositor R710, R711). -/
def State.eva (s : State) : Nat := min 16 ((s.ioRaw .bldalpha).extractLsb' 0 5).toNat

/-- EVB. -/
def State.evb (s : State) : Nat := min 16 ((s.ioRaw .bldalpha).extractLsb' 8 5).toNat

/-- EVY. -/
def State.evy (s : State) : Nat := min 16 ((s.ioRaw .bldy).extractLsb' 0 5).toNat

/-- BLDCNT mode (20_memory R195). -/
def State.blendMode (s : State) : Nat := ((s.ioRaw .bldcnt).extractLsb' 6 2).toNat

/-- Whether a layer is a 1st target (20_memory R195). -/
def State.isSource (s : State) (layer : Nat) : Bool := decide (layer < 6) && (s.ioRaw .bldcnt).getLsbD layer

/-- Whether a layer is a 2nd target (20_memory R195). -/
def State.isTarget (s : State) (layer : Nat) : Bool := decide (layer < 6) && (s.ioRaw .bldcnt).getLsbD (8 + layer)

/-- A semi-transparent OBJ pixel on top (47_compositor R709). -/
def BlendRecord.forced (r : BlendRecord) : Bool := decide (r.topLayer = 4) && r.topSemi

/-- The alpha branch of the blend decision: blended when the source is on top and a target is directly under it
(47_compositor R709). -/
def State.alphaOrPlain (s : State) (r : BlendRecord) : Rgb :=
  match r.under with
  | some (px, layer) =>
    if (s.isSource r.topLayer || r.forced) && s.isTarget layer then alphaPixel s.eva s.evb r.top px
    else expandPixel r.top
  | none => expandPixel r.top

/-- The blend decision (47_compositor R709). -/
def State.blend (s : State) (blendOk : Bool) (r : BlendRecord) : Rgb :=
  if !blendOk || decide (s.blendMode = 0) then expandPixel r.top
  else if r.forced || decide (s.blendMode = 1) then s.alphaOrPlain r
  else if s.blendMode = 2 then
    if s.isSource r.topLayer || r.forced then brightenPixel s.evy r.top else expandPixel r.top
  else
    if s.isSource r.topLayer || r.forced then darkenPixel s.evy r.top else expandPixel r.top

/-- White (47_compositor R712). -/
def white : Rgb := { r := 255#8, g := 255#8, b := 255#8 }

/-- `compose(x, y)` (47_compositor R702 to R713). -/
def State.compose (s : State) (x : Fin 240) (y : Nat) : Rgb :=
  if s.dispcntBit 7 then white
  else s.blend ((s.windowControl x y).getLsbD 5) (s.walk (s.windowControl x y) x)

end Sys2Proof.Machine
end

