-- ==== Sys2Proof/Machine/Flags.lean ====
section
/-! DEFINITION. Machine/Flags.lean: conditions, CPSR and mode encodings, and every flag computation
(40_shifter_alu R350, R370 to R375; 10_state R53, R57, R58; 42_arm_multiply_swap R457). -/

namespace Sys2Proof.Machine

/-! ### Modes and the CPSR word -/

/-- M[4:0] of a mode (10_state R53). -/
def Mode.bits : Mode → BitVec 5
  | .user => 0x10#5
  | .fiq => 0x11#5
  | .irq => 0x12#5
  | .svc => 0x13#5
  | .abt => 0x17#5
  | .und => 0x1B#5
  | .sys => 0x1F#5

/-- The mode an M field holds; no other value is legal (10_state R53). -/
def Mode.ofBits? (b : BitVec 5) : Option Mode :=
  match b with
  | 0x10#5 => some .user
  | 0x11#5 => some .fiq
  | 0x12#5 => some .irq
  | 0x13#5 => some .svc
  | 0x17#5 => some .abt
  | 0x1B#5 => some .und
  | 0x1F#5 => some .sys
  | _ => none

/-- User mode is unprivileged, the other six are privileged (60_exceptions R885). -/
def Mode.privileged : Mode → Bool
  | .user => false
  | .fiq => true
  | .irq => true
  | .svc => true
  | .abt => true
  | .und => true
  | .sys => true

/-- User and System modes have no SPSR (10_state R59). -/
def Mode.hasSpsr : Mode → Bool
  | .user => false
  | .fiq => true
  | .irq => true
  | .svc => true
  | .abt => true
  | .und => true
  | .sys => false

/-- CPSR as a 32-bit word (10_state R57): bits 27..8 read 0, F reads 1 (R58). -/
def Cpsr.toWord (p : Cpsr) : Word :=
  BitVec.ofBool p.n ++ BitVec.ofBool p.z ++ BitVec.ofBool p.c ++ BitVec.ofBool p.v ++ 0#20 ++ BitVec.ofBool p.i ++
    1#1 ++ BitVec.ofBool p.t ++ p.mode.bits

/-- CPSR from a word whose M field holds mode `m`: bit F and bits 27..8 are not stored (10_state R57, R58). -/
def Cpsr.ofWord (w : Word) (m : Mode) : Cpsr :=
  { n := w.getLsbD 31, z := w.getLsbD 30, c := w.getLsbD 29, v := w.getLsbD 28, i := w.getLsbD 7, t := w.getLsbD 5,
    mode := m }

/-! ### Conditions -/

/-- ConditionPassed (40_shifter_alu R350, R351, R352). -/
def condPassed (c : Cond) (p : Cpsr) : Bool :=
  match c with
  | .eq => p.z
  | .ne => !p.z
  | .cs => p.c
  | .cc => !p.c
  | .mi => p.n
  | .pl => !p.n
  | .vs => p.v
  | .vc => !p.v
  | .hi => p.c && !p.z
  | .ls => !p.c || p.z
  | .ge => p.n == p.v
  | .lt => p.n != p.v
  | .gt => !p.z && (p.n == p.v)
  | .le => p.z || (p.n != p.v)
  | .al => true
  | .nv => false

/-! ### Arithmetic -/

/-- A result with its carry and overflow. -/
structure AluResult where
  result : Word
  carry : Bool
  overflow : Bool
  deriving DecidableEq, Repr

/-- AddWithCarry (40_shifter_alu R370): the exact unsigned and signed sums, and the 32-bit result. -/
def addWithCarry (x y : Word) (cin : Bool) : AluResult :=
  let usum : Nat := x.toNat + y.toNat + cin.toNat
  let ssum : Int := x.toInt + y.toInt + (cin.toNat : Int)
  let result := BitVec.ofNat 32 usum
  { result := result, carry := decide (2 ^ 32 ≤ usum), overflow := decide (result.toInt ≠ ssum) }

/-- add(a, b) (40_shifter_alu R371). -/
def aluAdd (a b : Word) : AluResult := addWithCarry a b false

/-- adc(a, b) (40_shifter_alu R371). -/
def aluAdc (a b : Word) (c : Bool) : AluResult := addWithCarry a b c

/-- sub(a, b) (40_shifter_alu R371). -/
def aluSub (a b : Word) : AluResult := addWithCarry a (~~~b) true

/-- sbc(a, b) (40_shifter_alu R371). -/
def aluSbc (a b : Word) (c : Bool) : AluResult := addWithCarry a (~~~b) c

/-- rsb(a, b) (40_shifter_alu R371). -/
def aluRsb (a b : Word) : AluResult := addWithCarry b (~~~a) true

/-- rsc(a, b) (40_shifter_alu R371). -/
def aluRsc (a b : Word) (c : Bool) : AluResult := addWithCarry b (~~~a) c

/-! ### Flag updates -/

/-- N and Z from a result; C and V unchanged (45_thumb_alu R620 "Sets NZ"). -/
def Cpsr.setNZ (p : Cpsr) (result : Word) : Cpsr := { p with n := result.getLsbD 31, z := decide (result = 0#32) }

/-- The flag update of a logical operation (40_shifter_alu R372): C from the shifter, V unchanged. -/
def Cpsr.setLogical (p : Cpsr) (result : Word) (shifterCarry : Bool) : Cpsr :=
  { p with n := result.getLsbD 31, z := decide (result = 0#32), c := shifterCarry }

/-- The flag update of an arithmetic operation (40_shifter_alu R373). -/
def Cpsr.setArithmetic (p : Cpsr) (r : AluResult) : Cpsr :=
  { p with n := r.result.getLsbD 31, z := decide (r.result = 0#32), c := r.carry, v := r.overflow }

/-- The flag update of MUL, MLA and Thumb MUL (42_arm_multiply_swap R457): C is a draw, V unchanged. Log 6. -/
def Cpsr.setMultiply (p : Cpsr) (result : Word) (draw : Nat) : Cpsr :=
  { p with n := result.getLsbD 31, z := decide (result = 0#32), c := Config.multiplyCarry draw }

/-- The flag update of the long multiplies (42_arm_multiply_swap R457): N is bit 63, Z covers 64 bits, C and V are
draws. Log 6. -/
def Cpsr.setMultiplyLong (p : Cpsr) (result : BitVec 64) (draw : Nat) : Cpsr :=
  { p with n := result.getLsbD 63, z := decide (result = 0#64), c := Config.multiplyCarry draw,
           v := Config.multiplyOverflow draw }

end Sys2Proof.Machine
end

