-- ==== Sys2Proof/Machine/Ops.lean ====
section
/-! DEFINITION. Machine/Ops.lean: the shared operations: registers, the bus, branches, taking an exception and
returning from one (10_state R51 to R63; 20_memory R150 to R173; 60_exceptions R870 to R880; 70_reset_and_hazards
R941). -/

namespace Sys2Proof.Machine

/-! ### Outcomes -/

/-- A refusal when the test holds, else the rest. -/
def refuseIf {α : Type} (test : Bool) (reason : Refusal) (rest : Except Refusal α) : Except Refusal α :=
  bif test then .error reason else rest

/-- The outcome of an instruction body. -/
def outcome : Except Refusal State → Host.Outcome State Fault Refusal
  | .ok s => .next s
  | .error r => .refused r

/-- An instruction that does not write the PC ends here in ARM state (10_state R61). -/
def State.advance4 (s : State) : State := { s with pc := s.pc + 4#32 }

/-- An instruction that does not write the PC ends here in Thumb state (10_state R61). -/
def State.advance2 (s : State) : State := { s with pc := s.pc + 2#32 }

/-- An ARM instruction: its body when the condition passes, else only the PC advances (30_encoding R251). -/
def whenPassed (c : Cond) (s : State) (body : State → Except Refusal State) : Host.Outcome State Fault Refusal :=
  bif condPassed c s.cpsr then outcome (body s) else .next s.advance4

/-! ### Registers -/

/-- The register a number names in a mode; 15 is the PC, no stored register (10_state R52). -/
def physReg (m : Mode) (i : RegNum) : Option PhysReg :=
  match i, m with
  | 0#4, _ => some .r0
  | 1#4, _ => some .r1
  | 2#4, _ => some .r2
  | 3#4, _ => some .r3
  | 4#4, _ => some .r4
  | 5#4, _ => some .r5
  | 6#4, _ => some .r6
  | 7#4, _ => some .r7
  | 8#4, .fiq => some .r8fiq
  | 9#4, .fiq => some .r9fiq
  | 10#4, .fiq => some .r10fiq
  | 11#4, .fiq => some .r11fiq
  | 12#4, .fiq => some .r12fiq
  | 8#4, _ => some .r8usr
  | 9#4, _ => some .r9usr
  | 10#4, _ => some .r10usr
  | 11#4, _ => some .r11usr
  | 12#4, _ => some .r12usr
  | 13#4, .user => some .r13usr
  | 13#4, .sys => some .r13usr
  | 13#4, .fiq => some .r13fiq
  | 13#4, .irq => some .r13irq
  | 13#4, .svc => some .r13svc
  | 13#4, .abt => some .r13abt
  | 13#4, .und => some .r13und
  | 14#4, .user => some .r14usr
  | 14#4, .sys => some .r14usr
  | 14#4, .fiq => some .r14fiq
  | 14#4, .irq => some .r14irq
  | 14#4, .svc => some .r14svc
  | 14#4, .abt => some .r14abt
  | 14#4, .und => some .r14und
  | _, _ => none

/-- A stored register. -/
def State.reg (s : State) (p : PhysReg) : Word := s.regs[p.idx]

/-- The state with a stored register written. -/
def State.setReg (s : State) (p : PhysReg) (v : Word) : State := { s with regs := s.regs.set p.idx v }

/-- R_mode(m, i) with r15 reading as `r15` (10_state R52, R62). -/
def State.readRegMode (s : State) (m : Mode) (r15 : Word) (i : RegNum) : Word :=
  match physReg m i with
  | some p => s.reg p
  | none => r15

/-- R_mode(m, i) <- v for i other than 15; a write of r15 is a branch and is each instruction's own (10_state R63). -/
def State.writeRegMode (s : State) (m : Mode) (i : RegNum) (v : Word) : State :=
  match physReg m i with
  | some p => s.setReg p v
  | none => s

/-- R[i] in the current mode, r15 reading as `r15`. -/
def State.readReg (s : State) (r15 : Word) (i : RegNum) : Word := s.readRegMode s.cpsr.mode r15 i

/-- R[i] <- v in the current mode. -/
def State.writeReg (s : State) (i : RegNum) (v : Word) : State := s.writeRegMode s.cpsr.mode i v

/-- R[i] as an ARM instruction reads it: r15 is pc + 8 (10_state R62). -/
def State.armReg (s : State) (i : RegNum) : Word := s.readReg (s.pc + 8#32) i

/-- R[i] as a Thumb instruction reads it: r15 is pc + 4 (10_state R62, 45_thumb_alu R620). -/
def State.thumbReg (s : State) (i : RegNum) : Word := s.readReg (s.pc + 4#32) i

/-- The full number of a low register. -/
def lowReg (r : LowReg) : RegNum := 0#1 ++ r

/-- R[r] of a low register. -/
def State.low (s : State) (r : LowReg) : Word := s.thumbReg (lowReg r)

/-- R[r] <- v of a low register. -/
def State.setLow (s : State) (r : LowReg) (v : Word) : State := s.writeReg (lowReg r) v

/-! ### The SPSRs -/

/-- The SPSR of a mode; User and System have none (10_state R59). -/
def Spsrs.get? (p : Spsrs) (m : Mode) : Option Word :=
  match m with
  | .user => none
  | .fiq => some p.fiq
  | .irq => some p.irq
  | .svc => some p.svc
  | .abt => some p.abt
  | .und => some p.und
  | .sys => none

/-- The SPSRs with the one of a mode replaced. -/
def Spsrs.set (p : Spsrs) (m : Mode) (v : Word) : Spsrs :=
  match m with
  | .user => p
  | .fiq => { p with fiq := v }
  | .irq => { p with irq := v }
  | .svc => { p with svc := v }
  | .abt => { p with abt := v }
  | .und => { p with und := v }
  | .sys => p

/-! ### Bus reads (20_memory R151, R153) -/

/-- The address the bus uses (20_memory R153): addr AND NOT (n - 1). -/
def alignAddr (w : Width) (a : Word) : Word :=
  match w with
  | .byte => a
  | .half => a &&& 0xFFFFFFFE#32
  | .word => a &&& 0xFFFFFFFC#32

/-- One byte as the bus reads it: open bus where nothing is mapped (R170), the I/O page (R185), or storage. -/
def State.readByte (s : State) (a : Word) : Byte :=
  match regionOf a with
  | .unmapped => Config.openBus s.draws a.toNat
  | .io => s.ioReadByte (a.toNat % 0x400)
  | .bios => s.memByte (keyIn .bios a.toNat)
  | .ewram => s.memByte (keyIn .ewram a.toNat)
  | .iwram => s.memByte (keyIn .iwram a.toNat)
  | .palette => s.memByte (keyIn .palette a.toNat)
  | .vram => s.memByte (keyIn .vram a.toNat)
  | .oam => s.memByte (keyIn .oam a.toNat)
  | .rom => s.memByte (keyIn .rom a.toNat)
  | .sram => s.memByte (keyIn .sram a.toNat)

/-- Two bytes, the one at the lower address least significant (20_memory R151). -/
def State.readHalf (s : State) (a : Word) : Half := s.readByte (a + 1#32) ++ s.readByte a

/-- Four bytes, the one at the lowest address least significant (20_memory R151). -/
def State.readWord (s : State) (a : Word) : Word :=
  s.readByte (a + 3#32) ++ s.readByte (a + 2#32) ++ s.readByte (a + 1#32) ++ s.readByte a

/-- MemRead(addr, n), zero-extended (20_memory R153). -/
def State.memRead (s : State) (w : Width) (a : Word) : Word :=
  match w with
  | .byte => (s.readByte a).setWidth 32
  | .half => (s.readHalf (alignAddr .half a)).setWidth 32
  | .word => s.readWord (alignAddr .word a)

/-- Whether an access is a 16-bit or 32-bit access to SRAM (20_memory R168). -/
def sramWide (w : Width) (a : Word) : Bool := decide (w ≠ .byte) && decide (regionOf (alignAddr w a) = .sram)

/-- A data read of the CPU or of DMA: MemRead, or a refusal for a wide SRAM access (20_memory R168). -/
def State.load (s : State) (w : Width) (a : Word) : Except Refusal Word :=
  refuseIf (sramWide w a) .sramWideAccess (.ok (s.memRead w a))

/-- A word as LDR, SWP and the Thumb word loads see it: rotated so that the addressed byte is lowest
(43_arm_loadstore R481). -/
def State.loadRotated (s : State) (a : Word) : Except Refusal Word :=
  (s.load .word a).map (fun v => v.rotateRight (8 * (a.extractLsb' 0 2).toNat))

/-! ### Bus writes (20_memory R154, R155) -/

/-- Bytes in a row in one region, the least significant at the lowest address. -/
def cellsIn (r : Region) (w : Width) (a : Word) (v : Word) : List Host.Cell :=
  match w with
  | .byte => [(keyIn r a.toNat, v.extractLsb' 0 8)]
  | .half => [(keyIn r a.toNat, v.extractLsb' 0 8), (keyIn r (a.toNat + 1), v.extractLsb' 8 8)]
  | .word => [(keyIn r a.toNat, v.extractLsb' 0 8), (keyIn r (a.toNat + 1), v.extractLsb' 8 8),
      (keyIn r (a.toNat + 2), v.extractLsb' 16 8), (keyIn r (a.toNat + 3), v.extractLsb' 24 8)]

/-- The low byte of a value in both bytes of a halfword (20_memory R155). -/
def replicateByte (v : Word) : Word := (v.extractLsb' 0 8 ++ v.extractLsb' 0 8 : Half).setWidth 32

/-- The storage bytes a write stores, by key (20_memory R154, R155): none for a discarded write, none for the I/O
page; a byte written to palette RAM or VRAM fills its halfword; a byte written to OAM is discarded. -/
def storedCells (w : Width) (addr v : Word) : List Host.Cell :=
  let a := alignAddr w addr
  match regionOf a, w with
  | .ewram, _ => cellsIn .ewram w a v
  | .iwram, _ => cellsIn .iwram w a v
  | .palette, .byte => cellsIn .palette .half (alignAddr .half a) (replicateByte v)
  | .palette, _ => cellsIn .palette w a v
  | .vram, .byte => cellsIn .vram .half (alignAddr .half a) (replicateByte v)
  | .vram, _ => cellsIn .vram w a v
  | .oam, .byte => []
  | .oam, _ => cellsIn .oam w a v
  | .sram, .byte => cellsIn .sram .byte a v
  | .sram, _ => []
  | .bios, _ => []
  | .rom, _ => []
  | .io, _ => []
  | .unmapped, _ => []

/-- The state with storage bytes written, in order. -/
def State.storeCells (s : State) (cells : List Host.Cell) : State :=
  { s with mem := cells.foldl (fun m c => Memory.set m c.1 c.2) s.mem }

/-- A write to the I/O page at an aligned offset (20_memory R185). -/
def State.ioStore (s : State) (w : Width) (o : Nat) (v : Word) : State :=
  match w with
  | .byte => s.ioWrite8 o (v.extractLsb' 0 8)
  | .half => s.ioWrite16 o (v.extractLsb' 0 16)
  | .word => s.ioWrite32 o v

/-- MemWrite(addr, n, v) (20_memory R154), wide SRAM accesses apart. -/
def State.memWrite (s : State) (w : Width) (addr v : Word) : State :=
  match regionOf (alignAddr w addr) with
  | .io => s.ioStore w ((alignAddr w addr).toNat % 0x400) v
  | _ => s.storeCells (storedCells w addr v)

/-- The number of bytes of a width. -/
def Width.bytes : Width → Nat
  | .byte => 1
  | .half => 2
  | .word => 4

/-- The keys of the bytes a write counts as writing under 70_reset_and_hazards R941: the storage bytes it changes, and in
the I/O page every byte it addresses. DESIGN CHOICE (log 13): an unused offset or a read-only granule of the page counts,
although 20_memory R198 and R186 discard the write. -/
def storedKeys (w : Width) (addr v : Word) : List Nat :=
  match regionOf (alignAddr w addr) with
  | .io => (List.range w.bytes).map (fun k => (alignAddr w addr).toNat + k)
  | _ => (storedCells w addr v).map (fun c => c.1)

/-- The keys of the two instruction slots from an address on, in ARM or Thumb state (70_reset_and_hazards R941). -/
def windowKeys (thumb : Bool) (start : Word) : List Nat :=
  (List.range (if thumb then 4 else 8)).map (fun k => keyOf (start + BitVec.ofNat 32 k))

/-- Whether a write counts as writing a byte of the two instruction slots from an address on (70_reset_and_hazards R941).
Bytes are compared by storage key, so a mirror counts, and so does every byte of the I/O page (log 13). -/
def hitsWindow (thumb : Bool) (start : Word) (w : Width) (addr v : Word) : Bool :=
  (storedKeys w addr v).any (fun k => (windowKeys thumb start).contains k)

/-- The length of an instruction in the current state (30_encoding R296). -/
def State.instrLength (s : State) : Word := if s.cpsr.t then 2#32 else 4#32

/-- A data write of the executing instruction: MemWrite, or a refusal for a wide SRAM access (20_memory R168) or for
a store into the prefetch window (70_reset_and_hazards R941). -/
def State.store (s : State) (w : Width) (addr v : Word) : Except Refusal State :=
  refuseIf (sramWide w addr) .sramWideAccess <|
  refuseIf (hitsWindow s.cpsr.t (s.pc + s.instrLength) w addr v) .prefetchWindowWrite <|
  .ok (s.memWrite w addr v)

/-- Several stores of one instruction, in order (20_memory R173: atomic as a whole). -/
def State.storeAll (s : State) : List (Word × Word) → Except Refusal State
  | [] => .ok s
  | (a, v) :: rest => (s.store .word a v).bind (fun s' => s'.storeAll rest)

/-- Several word loads of one instruction, in order (20_memory R173). -/
def State.loadAll (s : State) : List Word → Except Refusal (List Word)
  | [] => .ok []
  | a :: rest => (s.load .word a).bind (fun v => (s.loadAll rest).map (fun vs => v :: vs))

/-! ### Branches -/

/-- A write of r15 in ARM state by data processing (41_arm_dataproc R408): the target must be word aligned. -/
def State.branchArm (s : State) (target : Word) : Except Refusal State :=
  refuseIf (decide (target.extractLsb' 0 2 ≠ 0#2)) .unalignedArmPcWrite (.ok { s with pc := target })

/-- A write of r15 in Thumb state (45_thumb_alu R606, 46_thumb_mem_branch R660): bit 0 is cleared. -/
def State.branchThumb (s : State) (target : Word) : State := { s with pc := target &&& 0xFFFFFFFE#32 }

/-- Branch and exchange (44_arm_branch_system R552, 45_thumb_alu R607). -/
def State.branchExchange (s : State) (v : Word) : Except Refusal State :=
  refuseIf (!v.getLsbD 0 && v.getLsbD 1) .unalignedArmPcWrite
    (.ok { s with cpsr := { s.cpsr with t := v.getLsbD 0 }, pc := v &&& 0xFFFFFFFE#32 })

/-! ### Taking an exception (60_exceptions R871, R872) -/

/-- The exceptions of R860. Prefetch Abort, Data Abort and FIQ are never raised by this hardware. -/
inductive ExceptionKind where
  | reset | undefined | swi | prefetchAbort | dataAbort | irq | fiq
  deriving DecidableEq, Repr

/-- The mode an exception is taken in (R872). -/
def ExceptionKind.mode : ExceptionKind → Mode
  | .reset => .svc
  | .undefined => .und
  | .swi => .svc
  | .prefetchAbort => .abt
  | .dataAbort => .abt
  | .irq => .irq
  | .fiq => .fiq

/-- The vector of an exception (R872). -/
def ExceptionKind.vector : ExceptionKind → Word
  | .reset => 0x00#32
  | .undefined => 0x04#32
  | .swi => 0x08#32
  | .prefetchAbort => 0x0C#32
  | .dataAbort => 0x10#32
  | .irq => 0x18#32
  | .fiq => 0x1C#32

/-- Exception entry, `enter(kind, ret)` (R871): CPSR to the SPSR of the new mode, mode, I = 1, T = 0, return address
to r14 of the new mode, PC to the vector; the user-bank hazard is cleared (70_reset_and_hazards R942). -/
def State.enterException (s : State) (k : ExceptionKind) (ret : Word) : State :=
  { (s.writeRegMode k.mode 14#4 ret) with
    cpsr := { s.cpsr with i := true, t := false, mode := k.mode }
    spsrs := s.spsrs.set k.mode s.cpsr.toWord
    userBankHazard := false
    pc := k.vector }

/-- `raise Undefined(pc)` and `raise SWI(pc)` (R873, R874): the return address is the next instruction's. -/
def State.raiseHere (s : State) (k : ExceptionKind) : State := s.enterException k (s.pc + s.instrLength)

/-- The IRQ condition (R870). -/
def State.irqPending (s : State) : Bool :=
  !s.cpsr.i && (s.ioRaw .ime).getLsbD 0 && decide (s.ioRaw .ie &&& s.ioRaw .if_ &&& 0x3FFF#16 ≠ 0#16)

/-- `raise IRQ` at a boundary (R875, R876). -/
def State.takeIrq (s : State) : State :=
  s.enterException .irq (s.pc + (if s.cpsr.t then Config.thumbIrqLrOffset else 4#32))

/-! ### Returning from an exception (60_exceptions R880) -/

/-- `restore_cpsr_from_spsr()` (R880). -/
def State.restoreCpsr (s : State) : Except Refusal State :=
  match s.spsrs.get? s.cpsr.mode with
  | none => .error .noSpsrInMode
  | some v =>
    match Mode.ofBits? (v.extractLsb' 0 5) with
    | none => .error .illegalMode
    | some m => .ok { s with cpsr := Cpsr.ofWord v m }

end Sys2Proof.Machine
end

