-- ==== Sys2Proof/Machine/Renderer.lean ====
section
/-! DEFINITION. Machine/Renderer.lean: the renderer step (47_compositor R700, R701). -/

namespace Sys2Proof.Machine

/-- The frame with the row of a line replaced; lines rise. -/
def setRow : List (Nat × Vector Rgb 240) → Nat → Vector Rgb 240 → List (Nat × Vector Rgb 240)
  | [], y, row => [(y, row)]
  | (z, old) :: rest, y, row =>
    if y < z then (y, row) :: (z, old) :: rest
    else if y = z then (y, row) :: rest
    else (z, old) :: setRow rest y row

/-- The last rendered row of a line. -/
def rowOf : List (Nat × Vector Rgb 240) → Nat → Option (Vector Rgb 240)
  | [], _ => none
  | (z, row) :: rest, y => if z = y then some row else rowOf rest y

/-- The latch of the affine reference registers at line 0 (47_compositor R700). -/
def State.startLine (s : State) (y : Fin 160) : State := if y.val = 0 then s.latchAffine else s

/-- The row of a line composed from the line buffers. -/
def State.composeRow (s : State) (y : Fin 160) : Vector Rgb 240 := Vector.ofFn fun x => s.compose x y.val

/-- The frame row written from the line buffers. -/
def State.writeRow (s : State) (y : Fin 160) : State := { s with frame := setRow s.frame y.val (s.composeRow y) }

/-- `render_line(y)` (47_compositor R700). -/
def State.renderLine (s : State) (y : Fin 160) : Except Refusal State :=
  refuseIf (decide (6 ≤ s.bgMode)) .bgMode67 <|
  refuseIf (s.objRefused y.val) .objProhibitedAttribute <|
  .ok ((((s.startLine y).produceBackgrounds y.val).produceSprites y.val).writeRow y).advanceAffine

end Sys2Proof.Machine
end

