-- ==== Sys2Proof/Machine/Environment.lean ====
section
/-! DEFINITION. Machine/Environment.lean: what the environment may do between two CPU steps (00_scope R7), DMA
transfers and reset (70_reset_and_hazards R920, R921). -/

namespace Sys2Proof.Machine

/-- The next draw. -/
def State.tick (s : State) : State := { s with draws := s.draws + 1 }

/-! ### DMA (00_scope R7 (d)) -/

/-- The cycles of one memory access of a DMA transfer (10_state R69, 70_reset_and_hazards R951; log 7), and the next
draw. -/
def State.countAccess (s : State) : State :=
  { s with cycles := s.cycles + Config.cycleCost .memoryAccess s.draws, draws := s.draws + 1 }

/-- A DMA write: refused for a wide SRAM access (20_memory R168) or when it changes a byte of the next two
instructions (70_reset_and_hazards R941). -/
def State.dmaWrite (s : State) (w : Width) (addr v : Word) : Except Refusal State :=
  refuseIf (sramWide w addr) .sramWideAccess <|
  refuseIf (hitsWindow s.cpsr.t s.pc w addr v) .prefetchWindowWrite <|
  .ok (s.memWrite w addr v).countAccess

/-- One access of a DMA transfer; a read changes nothing but the cycles (20_memory R174). -/
def State.dmaStep (s : State) : DmaOp → Except Refusal State
  | .read w addr => (s.load w addr).map (fun _ => s.countAccess)
  | .write w addr v => s.dmaWrite w addr v

/-- A whole transfer, in order. -/
def State.dma (s : State) : List DmaOp → Except Refusal State
  | [] => .ok s
  | op :: rest => (s.dmaStep op).bind (fun t => t.dma rest)

/-! ### Reset (70_reset_and_hazards R920) -/

/-- Whether a key belongs to the BIOS or the cartridge ROM, which hold their images over a reset (20_memory R199). -/
def isImageKey (k : Nat) : Bool := decide (k < 0x4000) || (decide (0x08000000 ≤ k) && decide (k < 0x0A000000))

/-- Power-on reset: every piece of state to its reset value, the partly elapsed scanline discarded; RAM bytes are drawn
anew; VCOUNT and KEYINPUT stay as the environment has them (20_memory R199), while DISPSTAT with its three flags, bits
2..0, which R186 and R188 also give the environment, becomes 0: DESIGN CHOICE (log 10). The images, the environment's
turns and what it was sent stay. Log 12. -/
def State.powerOn (s : State) : State :=
  { State.reset with
    mem := s.mem.filter (fun c => isImageKey c.1)
    io := (IoFile.reset.set IoReg.vcount.idx (s.ioRaw .vcount)).set IoReg.keyinput.idx (s.ioRaw .keyinput)
    envEvents := s.envEvents
    schedule := s.schedule
    draws := s.draws + 1
    powerOns := s.powerOns + 1 }

/-! ### Actions -/

/-- DISPSTAT with its three flags replaced (20_memory R188). -/
def dispstatWithFlags (old : Half) (vblank hblank vcountMatch : Bool) : Half :=
  old.extractLsb' 3 13 ++ BitVec.ofBool vcountMatch ++ BitVec.ofBool hblank ++ BitVec.ofBool vblank

/-- One action of the environment (00_scope R7). -/
def State.envAction (s : State) : EnvAction → Except Refusal State
  | .requestIrq bits => .ok (s.setIoRaw .if_ (s.ioRaw .if_ ||| (bits &&& 0x3FFF#16)))
  | .setVcount line => .ok (s.setIoRaw .vcount (BitVec.ofNat 16 line.val))
  | .setDispstatFlags vb hb vc => .ok (s.setIoRaw .dispstat (dispstatWithFlags (s.ioRaw .dispstat) vb hb vc))
  | .setKeyinput keys => .ok (s.setIoRaw .keyinput (keys &&& 0x03FF#16))
  | .dma ops => s.dma ops
  | .reset => .ok s.powerOn

/-- The environment's turn. -/
def envStep (a : EnvAction) (s : State) : Host.Outcome State Fault Refusal := outcome (s.tick.envAction a)

/-- The renderer's turn (47_compositor R700). -/
def renderStep (y : Fin 160) (s : State) : Host.Outcome State Fault Refusal := outcome (s.tick.renderLine y)

/-! ### The order within a scanline (70_reset_and_hazards R950; log 8) -/

/-- The frame driver at the start of the next of 228 scanlines. -/
def State.nextLine (s : State) : State := { s with line := s.line + 1, phase := .budget }

/-- A CPU step belongs to the budget of the current line, or opens the next line's when this one is rendered. -/
def State.beginBudget (s : State) : State := if s.phase = .effects then s.nextLine else { s with phase := .budget }

/-- An environment action within a budget lies between two CPU steps of it. -/
def State.markActed (s : State) : State := { s with phase := if s.phase = .budget then .acted else s.phase }

/-- The renderer's turn for line y comes once, when the CPU's budget for line y is done. -/
def State.renderTurn (s : State) (y : Fin 160) : Host.Outcome State Fault Refusal :=
  if s.line.val = y.val ∧ s.phase = .budget then renderStep y { s with phase := .effects } else .refused .frameOrder

/-- The end of a line: a visible line must be rendered first. -/
def State.endLineTurn (s : State) : Host.Outcome State Fault Refusal :=
  if s.line.val < 160 ∧ s.phase ≠ .effects then .refused .frameOrder else .next s.nextLine

end Sys2Proof.Machine
end

