-- ==== Sys2Proof/Machine/Operands.lean ====
section
/-! DEFINITION. Machine/Operands.lean: every operand form: the barrel shifter (40_shifter_alu R355 to R365), the
addressing of single, halfword and block transfers (43_arm_loadstore R480, R490, R510), and the immediates of both
states (30_encoding R257, R294). -/

namespace Sys2Proof.Machine

/-! ### The barrel shifter -/

/-- `shift_imm_op(kind, v, n, cin)` (40_shifter_alu R356), n in 0..31. -/
def shiftImmOp (kind : ShiftKind) (v : Word) (n : Nat) (cin : Bool) : Word × Bool :=
  match kind with
  | .lsl => if n = 0 then (v, cin) else (v <<< n, v.getLsbD (32 - n))
  | .lsr => if n = 0 then (0#32, v.getLsbD 31) else (v >>> n, v.getLsbD (n - 1))
  | .asr =>
    if n = 0 then (if v.getLsbD 31 then 0xFFFFFFFF#32 else 0#32, v.getLsbD 31)
    else (v.sshiftRight n, v.getLsbD (n - 1))
  | .ror =>
    if n = 0 then (BitVec.ofBool cin ++ v.extractLsb' 1 31, v.getLsbD 0)
    else (v.rotateRight n, v.getLsbD (n - 1))

/-- `shift_reg_op(kind, v, s, cin)` (40_shifter_alu R357), s in 0..255. -/
def shiftRegOp (kind : ShiftKind) (v : Word) (s : Nat) (cin : Bool) : Word × Bool :=
  if s = 0 then (v, cin)
  else match kind with
  | .lsl =>
    if s < 32 then (v <<< s, v.getLsbD (32 - s)) else if s = 32 then (0#32, v.getLsbD 0) else (0#32, false)
  | .lsr =>
    if s < 32 then (v >>> s, v.getLsbD (s - 1)) else if s = 32 then (0#32, v.getLsbD 31) else (0#32, false)
  | .asr =>
    if s < 32 then (v.sshiftRight s, v.getLsbD (s - 1))
    else (if v.getLsbD 31 then 0xFFFFFFFF#32 else 0#32, v.getLsbD 31)
  | .ror =>
    if s % 32 = 0 then (v, v.getLsbD 31) else (v.rotateRight (s % 32), v.getLsbD (s % 32 - 1))

/-- The rotated immediate and its carry (40_shifter_alu R365). -/
def rotatedImm (rot : BitVec 4) (imm8 : BitVec 8) (cin : Bool) : Word × Bool :=
  let imm32 := (imm8.setWidth 32).rotateRight (2 * rot.toNat)
  (imm32, if rot = 0#4 then cin else imm32.getLsbD 31)

/-- What r15 reads as in a data-processing instruction: pc + 12 with a register-specified shift, else pc + 8
(10_state R62, 40_shifter_alu R358). -/
def operandR15 (op2 : Operand2) (s : State) : Word :=
  match op2 with
  | .imm _ _ => s.pc + 8#32
  | .shiftImm _ _ _ => s.pc + 8#32
  | .shiftReg _ _ _ => s.pc + 12#32

/-- The shifter operand and its carry (40_shifter_alu R355). -/
def shifterOperand (op2 : Operand2) (s : State) : Word × Bool :=
  match op2 with
  | .imm rot imm8 => rotatedImm rot imm8 s.cpsr.c
  | .shiftImm amount kind rm => shiftImmOp kind (s.readReg (s.pc + 8#32) rm) amount.toNat s.cpsr.c
  | .shiftReg rs kind rm =>
    shiftRegOp kind (s.readReg (s.pc + 12#32) rm) ((s.readReg (s.pc + 12#32) rs).extractLsb' 0 8).toNat s.cpsr.c

/-! ### Single and halfword transfers -/

/-- The offset of LDR and STR (43_arm_loadstore R480). -/
inductive Offset12 where
  /-- Format A12. -/
  | imm (imm12 : BitVec 12)
  /-- Format A13. -/
  | reg (amount : BitVec 5) (kind : ShiftKind) (rm : RegNum)
  deriving DecidableEq, Repr

/-- Whether the offset register is r15, which is refused (43_arm_loadstore R480). -/
def Offset12.usesPc : Offset12 → Bool
  | .imm _ => false
  | .reg _ _ rm => decide (rm = 15#4)

/-- The offset value (43_arm_loadstore R480; 40_shifter_alu R356, the carry is not used). -/
def Offset12.value (o : Offset12) (s : State) : Word :=
  match o with
  | .imm imm12 => imm12.setWidth 32
  | .reg amount kind rm => (shiftImmOp kind (s.armReg rm) amount.toNat s.cpsr.c).1

/-- The offset of the halfword and signed-byte transfers (43_arm_loadstore R490). -/
inductive Offset8 where
  /-- Format A11: immH : immL. -/
  | imm (immH immL : BitVec 4)
  /-- Format A10. -/
  | reg (rm : RegNum)
  deriving DecidableEq, Repr

/-- Whether the offset register is r15, which is refused (43_arm_loadstore R490). -/
def Offset8.usesPc : Offset8 → Bool
  | .imm _ _ => false
  | .reg rm => decide (rm = 15#4)

/-- The offset value (43_arm_loadstore R490). -/
def Offset8.value (o : Offset8) (s : State) : Word :=
  match o with
  | .imm immH immL => (immH ++ immL : BitVec 8).setWidth 32
  | .reg rm => s.armReg rm

/-- The control bits P, U and W (30_encoding R259). -/
structure Indexing where
  p : Bool
  u : Bool
  w : Bool
  deriving DecidableEq, Repr

/-- `wb` of 43_arm_loadstore R480 and R490: post-indexed always writes back. -/
def Indexing.writesBack (x : Indexing) : Bool := !x.p || x.w

/-- `moved` of 43_arm_loadstore R480 and R490. -/
def Indexing.moved (x : Indexing) (base offset : Word) : Word := if x.u then base + offset else base - offset

/-- `addr` of 43_arm_loadstore R480 and R490. -/
def Indexing.address (x : Indexing) (base offset : Word) : Word := if x.p then x.moved base offset else base

/-- The address of a word or byte transfer (43_arm_loadstore R480). -/
def transferAddress (x : Indexing) (rn : RegNum) (o : Offset12) (s : State) : Word :=
  x.address (s.armReg rn) (o.value s)

/-- The moved base of a word or byte transfer (43_arm_loadstore R480). -/
def transferMoved (x : Indexing) (rn : RegNum) (o : Offset12) (s : State) : Word :=
  x.moved (s.armReg rn) (o.value s)

/-- The address of a halfword or signed-byte transfer (43_arm_loadstore R490). -/
def halfwordAddress (x : Indexing) (rn : RegNum) (o : Offset8) (s : State) : Word :=
  x.address (s.armReg rn) (o.value s)

/-- The moved base of a halfword or signed-byte transfer (43_arm_loadstore R490). -/
def halfwordMoved (x : Indexing) (rn : RegNum) (o : Offset8) (s : State) : Word :=
  x.moved (s.armReg rn) (o.value s)

/-! ### Block transfers (43_arm_loadstore R510) -/

/-- The register numbers 0..15, in order. -/
def allRegs : List RegNum :=
  [0#4, 1#4, 2#4, 3#4, 4#4, 5#4, 6#4, 7#4, 8#4, 9#4, 10#4, 11#4, 12#4, 13#4, 14#4, 15#4]

/-- The registers of a list, lowest first: bit i selects register i (30_encoding R257). -/
def listedRegs (rlist : BitVec 16) : List RegNum := allRegs.filter (fun i => rlist.getLsbD i.toNat)

/-- The byte size of a list: 4 * popcount(rlist). -/
def listBytes (rlist : BitVec 16) : Word := BitVec.ofNat 32 (4 * (listedRegs rlist).length)

/-- `start` of 43_arm_loadstore R510, by P and U. -/
def blockStart (p u : Bool) (base : Word) (rlist : BitVec 16) : Word :=
  match p, u with
  | false, true => base
  | true, true => base + 4#32
  | false, false => base - listBytes rlist + 4#32
  | true, false => base - listBytes rlist

/-- `new_base` of 43_arm_loadstore R510. -/
def blockNewBase (u : Bool) (base : Word) (rlist : BitVec 16) : Word :=
  if u then base + listBytes rlist else base - listBytes rlist

/-- The registers of a list with their addresses, low to high, each address forced to a word boundary
(43_arm_loadstore R510). -/
def blockSlots (start : Word) : List RegNum → List (RegNum × Word)
  | [] => []
  | i :: rest => (i, start &&& 0xFFFFFFFC#32) :: blockSlots (start + 4#32) rest

/-! ### Thumb immediates (30_encoding R294) -/

/-- `zext_32(v) << k`. -/
def zextShift {n : Nat} (v : BitVec n) (k : Nat) : Word := v.setWidth 32 <<< k

/-- The word-aligned PC of the PC-relative forms: (pc + 4) AND 0xFFFFFFFC (10_state R62). -/
def State.alignedPc (s : State) : Word := (s.pc + 4#32) &&& 0xFFFFFFFC#32

end Sys2Proof.Machine
end

