-- ==== Sys2Proof/Machine/ArmBlock.lean ====
section
/-! DEFINITION. Machine/ArmBlock.lean: LDM and STM (43_arm_loadstore R510 to R516). -/

namespace Sys2Proof.Machine

/-- The register list, base and writeback checks of every block transfer (43_arm_loadstore R510). -/
def blockChecks {α : Type} (rn : RegNum) (rlist : BitVec 16) (rest : Except Refusal α) : Except Refusal α :=
  refuseIf (decide (rlist = 0#16)) .emptyRegisterList <|
  refuseIf (decide (rn = 15#4)) .blockTransferBasePc rest

/-- Whether register `i` is in the list. -/
def inList (rlist : BitVec 16) (i : RegNum) : Bool := rlist.getLsbD i.toNat

/-- Whether `rn` is in the list and is not its lowest register (43_arm_loadstore R514). -/
def baseNotFirst (rlist : BitVec 16) (rn : RegNum) : Bool :=
  inList rlist rn && decide ((listedRegs rlist).head? ≠ some rn)

/-- The mode whose registers a user-bank transfer accesses is User (43_arm_loadstore R511); it is refused in User and
System modes. -/
def userBankChecks {α : Type} (w : Bool) (s : State) (rest : Except Refusal α) : Except Refusal α :=
  refuseIf (!s.cpsr.mode.hasSpsr) .userBankInUserMode <|
  refuseIf w .userBankWriteback rest

/-- The words an STM stores with their addresses (43_arm_loadstore R516): r15 is pc + 12, other registers are those
of mode `m`. -/
def stmStores (m : Mode) (p u : Bool) (rn : RegNum) (rlist : BitVec 16) (s : State) : List (Word × Word) :=
  (blockSlots (blockStart p u (s.armReg rn) rlist) (listedRegs rlist)).map
    (fun x => (x.2, s.readRegMode m (s.pc + 12#32) x.1))

/-- The addresses an LDM loads from (43_arm_loadstore R515). -/
def ldmAddresses (p u : Bool) (rn : RegNum) (rlist : BitVec 16) (s : State) : List Word :=
  (blockSlots (blockStart p u (s.armReg rn) rlist) (listedRegs rlist)).map (fun x => x.2)

/-- `if W = 1: R[Rn] <- new_base` (43_arm_loadstore R514). -/
def blockWriteback (w u : Bool) (rn : RegNum) (rlist : BitVec 16) (base : Word) (s : State) : State :=
  if w then s.writeReg rn (blockNewBase u base rlist) else s

/-- Loaded values to the listed registers of mode `m`; r15 is left to the caller. -/
def State.writeListed (s : State) (m : Mode) : List (RegNum × Word) → State
  | [] => s
  | (i, v) :: rest => (s.writeRegMode m i v).writeListed m rest

/-- The value loaded for r15, the highest register of its list. -/
def loadedPc (vs : List Word) : Word := vs.getLastD 0#32

/-- STM with S = 0 (43_arm_loadstore R516). -/
def stmBody (p u w : Bool) (rn : RegNum) (rlist : BitVec 16) (s : State) : Except Refusal State :=
  blockChecks rn rlist <|
  refuseIf (w && baseNotFirst rlist rn) .stmWritebackBaseNotFirst <|
  (s.storeAll (stmStores s.cpsr.mode p u rn rlist s)).bind fun t =>
    .ok (blockWriteback w u rn rlist (s.armReg rn) t).advance4

/-- STM with S = 1: the User registers (43_arm_loadstore R511, R514, R516). -/
def stmUserBody (p u w : Bool) (rn : RegNum) (rlist : BitVec 16) (s : State) : Except Refusal State :=
  blockChecks rn rlist <|
  userBankChecks w s <|
  (s.storeAll (stmStores .user p u rn rlist s)).bind fun t => .ok t.advance4

/-- LDM with S = 0 (43_arm_loadstore R512, R514, R515). -/
def ldmBody (p u w : Bool) (rn : RegNum) (rlist : BitVec 16) (s : State) : Except Refusal State :=
  blockChecks rn rlist <|
  refuseIf (w && inList rlist rn) .ldmWritebackBaseInList <|
  (s.loadAll (ldmAddresses p u rn rlist s)).bind fun vs =>
    let t := (blockWriteback w u rn rlist (s.armReg rn) s).writeListed s.cpsr.mode ((listedRegs rlist).zip vs)
    if inList rlist 15#4 then .ok { t with pc := loadedPc vs &&& 0xFFFFFFFC#32 } else .ok t.advance4

/-- The PC after LDM with S = 1 and r15: aligned by the T bit just restored (43_arm_loadstore R513). -/
def alignByState (thumb : Bool) (v : Word) : Word :=
  if thumb then v &&& 0xFFFFFFFE#32 else v &&& 0xFFFFFFFC#32

/-- LDM with S = 1 and r15 in the list: the exception return (43_arm_loadstore R513). The registers are loaded in the
bank of the old mode, then CPSR is restored. -/
def ldmReturnBody (p u w : Bool) (rn : RegNum) (rlist : BitVec 16) (s : State) : Except Refusal State :=
  refuseIf (w && inList rlist rn) .ldmWritebackBaseInList <|
  (s.loadAll (ldmAddresses p u rn rlist s)).bind fun vs =>
    let t := (blockWriteback w u rn rlist (s.armReg rn) s).writeListed s.cpsr.mode ((listedRegs rlist).zip vs)
    t.restoreCpsr.bind fun r => .ok { r with pc := alignByState r.cpsr.t (loadedPc vs) }

/-- LDM with S = 1 and without r15: the User registers, and the hazard of 70_reset_and_hazards R942
(43_arm_loadstore R511, R515). -/
def ldmUserBankBody (p u w : Bool) (rn : RegNum) (rlist : BitVec 16) (s : State) : Except Refusal State :=
  userBankChecks w s <|
  (s.loadAll (ldmAddresses p u rn rlist s)).bind fun vs =>
    .ok { (s.writeListed .user ((listedRegs rlist).zip vs)) with userBankHazard := true, pc := s.pc + 4#32 }

/-- LDM with S = 1 (43_arm_loadstore R511, R513). -/
def ldmUserBody (p u w : Bool) (rn : RegNum) (rlist : BitVec 16) (s : State) : Except Refusal State :=
  blockChecks rn rlist <|
  if inList rlist 15#4 then ldmReturnBody p u w rn rlist s else ldmUserBankBody p u w rn rlist s

/-- STM (43_arm_loadstore R516). -/
def execArmStm (c : Cond) (p u w : Bool) (rn : RegNum) (rlist : BitVec 16) (s : State) :
    Host.Outcome State Fault Refusal :=
  whenPassed c s (stmBody p u w rn rlist)

/-- STM with S = 1 (43_arm_loadstore R511, R516). -/
def execArmStmUser (c : Cond) (p u w : Bool) (rn : RegNum) (rlist : BitVec 16) (s : State) :
    Host.Outcome State Fault Refusal :=
  whenPassed c s (stmUserBody p u w rn rlist)

/-- LDM (43_arm_loadstore R512, R515). -/
def execArmLdm (c : Cond) (p u w : Bool) (rn : RegNum) (rlist : BitVec 16) (s : State) :
    Host.Outcome State Fault Refusal :=
  whenPassed c s (ldmBody p u w rn rlist)

/-- LDM with S = 1 (43_arm_loadstore R511, R513, R515). -/
def execArmLdmUser (c : Cond) (p u w : Bool) (rn : RegNum) (rlist : BitVec 16) (s : State) :
    Host.Outcome State Fault Refusal :=
  whenPassed c s (ldmUserBody p u w rn rlist)

end Sys2Proof.Machine
end

