-- ==== Sys2Proof/Machine/ArmBranch.lean ====
section
/-! DEFINITION. Machine/ArmBranch.lean: branches, exchange, software interrupt, coprocessor and undefined encodings
(44_arm_branch_system). -/

namespace Sys2Proof.Machine

/-- The target of B and BL (44_arm_branch_system R550): pc + 8 + sext_32(off24 : 00). -/
def armBranchTarget (off24 : BitVec 24) (s : State) : Word :=
  s.pc + 8#32 + (off24 ++ 0#2 : BitVec 26).signExtend 32

/-- The body of every Undefined-class instruction (44_arm_branch_system R560, 60_exceptions R873). -/
def undefinedBody (s : State) : Except Refusal State := .ok (s.raiseHere .undefined)

/-- B (44_arm_branch_system R550). -/
def execArmB (c : Cond) (off24 : BitVec 24) (s : State) : Host.Outcome State Fault Refusal :=
  whenPassed c s fun s => .ok { s with pc := armBranchTarget off24 s }

/-- BL (44_arm_branch_system R551). -/
def execArmBl (c : Cond) (off24 : BitVec 24) (s : State) : Host.Outcome State Fault Refusal :=
  whenPassed c s fun s => .ok { (s.writeReg 14#4 (s.pc + 4#32)) with pc := armBranchTarget off24 s }

/-- BX (44_arm_branch_system R552); bits 19..8 must be 0xFFF (30_encoding R254). -/
def execArmBx (c : Cond) (sbo : BitVec 12) (rm : RegNum) (s : State) : Host.Outcome State Fault Refusal :=
  whenPassed c s fun s =>
    refuseIf (decide (sbo ≠ 0xFFF#12)) .sbzSboViolation <| s.branchExchange (s.armReg rm)

/-- SWI (44_arm_branch_system R553, 60_exceptions R874); the comment is ignored. -/
def execArmSwi (c : Cond) (_comment24 : BitVec 24) (s : State) : Host.Outcome State Fault Refusal :=
  whenPassed c s fun s => .ok (s.raiseHere .swi)

/-- UNDEF_A14 (44_arm_branch_system R560). -/
def execArmUndefA14 (c : Cond) (_high : BitVec 20) (_low : BitVec 4) (s : State) :
    Host.Outcome State Fault Refusal :=
  whenPassed c s undefinedBody

/-- UNDEF_mulspace (44_arm_branch_system R560). -/
def execArmUndefMulspace (c : Cond) (_high : BitVec 5) (_mid : BitVec 12) (_low : BitVec 4) (s : State) :
    Host.Outcome State Fault Refusal :=
  whenPassed c s undefinedBody

/-- UNDEF_misc (44_arm_branch_system R560). -/
def execArmUndefMisc (c : Cond) (_imm : Bool) (_op : BitVec 2) (_rest : BitVec 20) (s : State) :
    Host.Outcome State Fault Refusal :=
  whenPassed c s undefinedBody

/-- LDC (44_arm_branch_system R561). -/
def execArmLdc (c : Cond) (_p _u _n _w : Bool) (_rn : RegNum) (_crd _cpNum : BitVec 4) (_off8 : BitVec 8) (s : State) :
    Host.Outcome State Fault Refusal :=
  whenPassed c s undefinedBody

/-- STC (44_arm_branch_system R561). -/
def execArmStc (c : Cond) (_p _u _n _w : Bool) (_rn : RegNum) (_crd _cpNum : BitVec 4) (_off8 : BitVec 8) (s : State) :
    Host.Outcome State Fault Refusal :=
  whenPassed c s undefinedBody

/-- CDP (44_arm_branch_system R561). -/
def execArmCdp (c : Cond) (_op1 _crn _crd _cpNum : BitVec 4) (_op2 : BitVec 3) (_crm : BitVec 4) (s : State) :
    Host.Outcome State Fault Refusal :=
  whenPassed c s undefinedBody

/-- MCR (44_arm_branch_system R561). -/
def execArmMcr (c : Cond) (_op1 : BitVec 3) (_crn : BitVec 4) (_rd : RegNum) (_cpNum : BitVec 4) (_op2 : BitVec 3) (_crm : BitVec 4) (s : State) :
    Host.Outcome State Fault Refusal :=
  whenPassed c s undefinedBody

/-- MRC (44_arm_branch_system R561). -/
def execArmMrc (c : Cond) (_op1 : BitVec 3) (_crn : BitVec 4) (_rd : RegNum) (_cpNum : BitVec 4) (_op2 : BitVec 3) (_crm : BitVec 4) (s : State) :
    Host.Outcome State Fault Refusal :=
  whenPassed c s undefinedBody

end Sys2Proof.Machine
end

