-- ==== Sys2Proof/Machine/ArmDataProc.lean ====
section
/-! DEFINITION. Machine/ArmDataProc.lean: the ARM data-processing instructions (41_arm_dataproc R400 to R420). -/

namespace Sys2Proof.Machine

/-- The sixteen operations (30_encoding R255). -/
inductive DpOp where
  | and | eor | sub | rsb | add | adc | sbc | rsc | tst | teq | cmp | cmn | orr | mov | bic | mvn
  deriving DecidableEq, Repr

/-- Whether Rn is not used and must be 0 (30_encoding R254, R255). -/
def DpOp.ignoresRn : DpOp → Bool
  | .mov => true
  | .mvn => true
  | _ => false

/-- The result and the flags an operation on `a` and the shifter operand `(b, sc)` sets when it sets flags
(41_arm_dataproc R400 to R419; 40_shifter_alu R371, R372, R373). -/
def dpCompute (op : DpOp) (p : Cpsr) (a b : Word) (sc : Bool) : Word × Cpsr :=
  match op with
  | .and => (a &&& b, p.setLogical (a &&& b) sc)
  | .eor => (a ^^^ b, p.setLogical (a ^^^ b) sc)
  | .sub => ((aluSub a b).result, p.setArithmetic (aluSub a b))
  | .rsb => ((aluRsb a b).result, p.setArithmetic (aluRsb a b))
  | .add => ((aluAdd a b).result, p.setArithmetic (aluAdd a b))
  | .adc => ((aluAdc a b p.c).result, p.setArithmetic (aluAdc a b p.c))
  | .sbc => ((aluSbc a b p.c).result, p.setArithmetic (aluSbc a b p.c))
  | .rsc => ((aluRsc a b p.c).result, p.setArithmetic (aluRsc a b p.c))
  | .tst => (a &&& b, p.setLogical (a &&& b) sc)
  | .teq => (a ^^^ b, p.setLogical (a ^^^ b) sc)
  | .cmp => ((aluSub a b).result, p.setArithmetic (aluSub a b))
  | .cmn => ((aluAdd a b).result, p.setArithmetic (aluAdd a b))
  | .orr => (a ||| b, p.setLogical (a ||| b) sc)
  | .mov => (b, p.setLogical b sc)
  | .bic => (a &&& ~~~b, p.setLogical (a &&& ~~~b) sc)
  | .mvn => (~~~b, p.setLogical (~~~b) sc)

/-- The result and flags of an operation in a state (41_arm_dataproc R420). -/
def dpResult (op : DpOp) (rn : RegNum) (op2 : Operand2) (s : State) : Word × Cpsr :=
  dpCompute op s.cpsr (s.readReg (operandR15 op2 s) rn) (shifterOperand op2 s).1 (shifterOperand op2 s).2

/-- Writing r15 with S = 1: the exception return (41_arm_dataproc R409). -/
def State.returnFromException (s : State) (res : Word) : Except Refusal State :=
  s.restoreCpsr.bind (fun t => if t.cpsr.t then .ok (t.branchThumb res) else t.branchArm res)

/-- An operation that writes Rd (41_arm_dataproc R420, R408, R409). -/
def dpWrite (op : DpOp) (setFlags : Bool) (rn rd : RegNum) (op2 : Operand2) (s : State) : Except Refusal State :=
  refuseIf (op.ignoresRn && decide (rn ≠ 0#4)) .sbzSboViolation <|
  if rd = 15#4 then
    if setFlags then s.returnFromException (dpResult op rn op2 s).1 else s.branchArm (dpResult op rn op2 s).1
  else
    .ok { (s.writeReg rd (dpResult op rn op2 s).1) with
      cpsr := if setFlags then (dpResult op rn op2 s).2 else s.cpsr
      pc := s.pc + 4#32 }

/-- An operation that only sets flags (41_arm_dataproc R420, R410 to R413); Rd must be 0 (30_encoding R254). -/
def dpTest (op : DpOp) (rn rd : RegNum) (op2 : Operand2) (s : State) : Except Refusal State :=
  refuseIf (decide (rd ≠ 0#4)) .sbzSboViolation <|
  .ok { s with cpsr := (dpResult op rn op2 s).2, pc := s.pc + 4#32 }

/-- AND (41_arm_dataproc R400). -/
def execArmAnd (c : Cond) (setFlags : Bool) (rn rd : RegNum) (op2 : Operand2) (s : State) :
    Host.Outcome State Fault Refusal :=
  whenPassed c s (dpWrite .and setFlags rn rd op2)

/-- EOR (41_arm_dataproc R401). -/
def execArmEor (c : Cond) (setFlags : Bool) (rn rd : RegNum) (op2 : Operand2) (s : State) :
    Host.Outcome State Fault Refusal :=
  whenPassed c s (dpWrite .eor setFlags rn rd op2)

/-- SUB (41_arm_dataproc R402). -/
def execArmSub (c : Cond) (setFlags : Bool) (rn rd : RegNum) (op2 : Operand2) (s : State) :
    Host.Outcome State Fault Refusal :=
  whenPassed c s (dpWrite .sub setFlags rn rd op2)

/-- RSB (41_arm_dataproc R403). -/
def execArmRsb (c : Cond) (setFlags : Bool) (rn rd : RegNum) (op2 : Operand2) (s : State) :
    Host.Outcome State Fault Refusal :=
  whenPassed c s (dpWrite .rsb setFlags rn rd op2)

/-- ADD (41_arm_dataproc R404). -/
def execArmAdd (c : Cond) (setFlags : Bool) (rn rd : RegNum) (op2 : Operand2) (s : State) :
    Host.Outcome State Fault Refusal :=
  whenPassed c s (dpWrite .add setFlags rn rd op2)

/-- ADC (41_arm_dataproc R405). -/
def execArmAdc (c : Cond) (setFlags : Bool) (rn rd : RegNum) (op2 : Operand2) (s : State) :
    Host.Outcome State Fault Refusal :=
  whenPassed c s (dpWrite .adc setFlags rn rd op2)

/-- SBC (41_arm_dataproc R406). -/
def execArmSbc (c : Cond) (setFlags : Bool) (rn rd : RegNum) (op2 : Operand2) (s : State) :
    Host.Outcome State Fault Refusal :=
  whenPassed c s (dpWrite .sbc setFlags rn rd op2)

/-- RSC (41_arm_dataproc R407). -/
def execArmRsc (c : Cond) (setFlags : Bool) (rn rd : RegNum) (op2 : Operand2) (s : State) :
    Host.Outcome State Fault Refusal :=
  whenPassed c s (dpWrite .rsc setFlags rn rd op2)

/-- TST (41_arm_dataproc R410). -/
def execArmTst (c : Cond) (rn rd : RegNum) (op2 : Operand2) (s : State) : Host.Outcome State Fault Refusal :=
  whenPassed c s (dpTest .tst rn rd op2)

/-- TEQ (41_arm_dataproc R411). -/
def execArmTeq (c : Cond) (rn rd : RegNum) (op2 : Operand2) (s : State) : Host.Outcome State Fault Refusal :=
  whenPassed c s (dpTest .teq rn rd op2)

/-- CMP (41_arm_dataproc R412). -/
def execArmCmp (c : Cond) (rn rd : RegNum) (op2 : Operand2) (s : State) : Host.Outcome State Fault Refusal :=
  whenPassed c s (dpTest .cmp rn rd op2)

/-- CMN (41_arm_dataproc R413). -/
def execArmCmn (c : Cond) (rn rd : RegNum) (op2 : Operand2) (s : State) : Host.Outcome State Fault Refusal :=
  whenPassed c s (dpTest .cmn rn rd op2)

/-- ORR (41_arm_dataproc R414). -/
def execArmOrr (c : Cond) (setFlags : Bool) (rn rd : RegNum) (op2 : Operand2) (s : State) :
    Host.Outcome State Fault Refusal :=
  whenPassed c s (dpWrite .orr setFlags rn rd op2)

/-- MOV (41_arm_dataproc R415). -/
def execArmMov (c : Cond) (setFlags : Bool) (rn rd : RegNum) (op2 : Operand2) (s : State) :
    Host.Outcome State Fault Refusal :=
  whenPassed c s (dpWrite .mov setFlags rn rd op2)

/-- BIC (41_arm_dataproc R418). -/
def execArmBic (c : Cond) (setFlags : Bool) (rn rd : RegNum) (op2 : Operand2) (s : State) :
    Host.Outcome State Fault Refusal :=
  whenPassed c s (dpWrite .bic setFlags rn rd op2)

/-- MVN (41_arm_dataproc R419). -/
def execArmMvn (c : Cond) (setFlags : Bool) (rn rd : RegNum) (op2 : Operand2) (s : State) :
    Host.Outcome State Fault Refusal :=
  whenPassed c s (dpWrite .mvn setFlags rn rd op2)

end Sys2Proof.Machine
end

