-- ==== Sys2Proof/Machine/ArmLoadStore.lean ====
section
/-! DEFINITION. Machine/ArmLoadStore.lean: LDR, STR, LDRB, STRB and their T forms (43_arm_loadstore R480 to R487).
There is no translation, so a T form is the post-indexed form (R486, R487; 20_memory R180). -/

namespace Sys2Proof.Machine

/-- The addressing checks of 43_arm_loadstore R480; `rdLoad` is Rd of a load. -/
def transferChecks {α : Type} (x : Indexing) (rn : RegNum) (o : Offset12) (rdLoad : Option RegNum)
    (rest : Except Refusal α) : Except Refusal α :=
  refuseIf o.usesPc .loadStoreOffsetPc <|
  refuseIf (x.writesBack && decide (rn = 15#4)) .writebackPc <|
  refuseIf (x.writesBack && decide (rdLoad = some rn)) .loadWritebackSameRegister rest

/-- `if wb: R[Rn] <- moved` (43_arm_loadstore R480). -/
def State.writeback (s : State) (wb : Bool) (rn : RegNum) (moved : Word) : State :=
  if wb then s.writeReg rn moved else s

/-- LDR (43_arm_loadstore R481, R483): the rotated word; into r15 only from an aligned address, low bits cleared. -/
def loadWordTransfer (x : Indexing) (rn rd : RegNum) (o : Offset12) (s : State) : Except Refusal State :=
  transferChecks x rn o (some rd) <|
  refuseIf (decide (rd = 15#4) && decide ((transferAddress x rn o s).extractLsb' 0 2 ≠ 0#2)) .unalignedPcLoad <|
  (s.loadRotated (transferAddress x rn o s)).bind fun v =>
    if rd = 15#4 then
      .ok { (s.writeback x.writesBack rn (transferMoved x rn o s)) with pc := v &&& 0xFFFFFFFC#32 }
    else .ok ((s.writeback x.writesBack rn (transferMoved x rn o s)).writeReg rd v).advance4

/-- LDRB (43_arm_loadstore R484). -/
def loadByteTransfer (x : Indexing) (rn rd : RegNum) (o : Offset12) (s : State) : Except Refusal State :=
  transferChecks x rn o (some rd) <|
  refuseIf (decide (rd = 15#4)) .byteLoadToPc <|
  (s.load .byte (transferAddress x rn o s)).bind fun v =>
    .ok ((s.writeback x.writesBack rn (transferMoved x rn o s)).writeReg rd v).advance4

/-- The value STR stores: r15 reads pc + 12 (43_arm_loadstore R482, 10_state R62). -/
def storedValue (rd : RegNum) (s : State) : Word := s.readReg (s.pc + 12#32) rd

/-- STR (43_arm_loadstore R482): the store, then the writeback. -/
def storeWordTransfer (x : Indexing) (rn rd : RegNum) (o : Offset12) (s : State) : Except Refusal State :=
  transferChecks x rn o none <|
  (s.store .word (transferAddress x rn o s) (storedValue rd s)).bind fun t =>
    .ok (t.writeback x.writesBack rn (transferMoved x rn o s)).advance4

/-- STRB (43_arm_loadstore R485). -/
def storeByteTransfer (x : Indexing) (rn rd : RegNum) (o : Offset12) (s : State) : Except Refusal State :=
  transferChecks x rn o none <|
  refuseIf (decide (rd = 15#4)) .byteStoreFromPc <|
  (s.store .byte (transferAddress x rn o s) (s.armReg rd)).bind fun t =>
    .ok (t.writeback x.writesBack rn (transferMoved x rn o s)).advance4

/-- STR, pre-indexed, immediate offset (43_arm_loadstore R480, R482). -/
def execArmStrImmPre (c : Cond) (u w : Bool) (rn rd : RegNum) (imm12 : BitVec 12) (s : State) :
    Host.Outcome State Fault Refusal :=
  whenPassed c s (storeWordTransfer { p := true, u := u, w := w } rn rd (.imm imm12))

/-- STR, post-indexed, immediate offset (43_arm_loadstore R480, R482). -/
def execArmStrImmPost (c : Cond) (u : Bool) (rn rd : RegNum) (imm12 : BitVec 12) (s : State) :
    Host.Outcome State Fault Refusal :=
  whenPassed c s (storeWordTransfer { p := false, u := u, w := false } rn rd (.imm imm12))

/-- STRT, immediate offset (43_arm_loadstore R480, R487). -/
def execArmStrtImm (c : Cond) (u : Bool) (rn rd : RegNum) (imm12 : BitVec 12) (s : State) :
    Host.Outcome State Fault Refusal :=
  whenPassed c s (storeWordTransfer { p := false, u := u, w := true } rn rd (.imm imm12))

/-- STR, pre-indexed, register offset (43_arm_loadstore R480, R482). -/
def execArmStrRegPre (c : Cond) (u w : Bool) (rn rd : RegNum) (amount : BitVec 5) (kind : ShiftKind) (rm : RegNum) (s : State) :
    Host.Outcome State Fault Refusal :=
  whenPassed c s (storeWordTransfer { p := true, u := u, w := w } rn rd (.reg amount kind rm))

/-- STR, post-indexed, register offset (43_arm_loadstore R480, R482). -/
def execArmStrRegPost (c : Cond) (u : Bool) (rn rd : RegNum) (amount : BitVec 5) (kind : ShiftKind) (rm : RegNum) (s : State) :
    Host.Outcome State Fault Refusal :=
  whenPassed c s (storeWordTransfer { p := false, u := u, w := false } rn rd (.reg amount kind rm))

/-- STRT, register offset (43_arm_loadstore R480, R487). -/
def execArmStrtReg (c : Cond) (u : Bool) (rn rd : RegNum) (amount : BitVec 5) (kind : ShiftKind) (rm : RegNum) (s : State) :
    Host.Outcome State Fault Refusal :=
  whenPassed c s (storeWordTransfer { p := false, u := u, w := true } rn rd (.reg amount kind rm))

/-- LDR, pre-indexed, immediate offset (43_arm_loadstore R480, R481, R483). -/
def execArmLdrImmPre (c : Cond) (u w : Bool) (rn rd : RegNum) (imm12 : BitVec 12) (s : State) :
    Host.Outcome State Fault Refusal :=
  whenPassed c s (loadWordTransfer { p := true, u := u, w := w } rn rd (.imm imm12))

/-- LDR, post-indexed, immediate offset (43_arm_loadstore R480, R481, R483). -/
def execArmLdrImmPost (c : Cond) (u : Bool) (rn rd : RegNum) (imm12 : BitVec 12) (s : State) :
    Host.Outcome State Fault Refusal :=
  whenPassed c s (loadWordTransfer { p := false, u := u, w := false } rn rd (.imm imm12))

/-- LDRT, immediate offset (43_arm_loadstore R480, R486). -/
def execArmLdrtImm (c : Cond) (u : Bool) (rn rd : RegNum) (imm12 : BitVec 12) (s : State) :
    Host.Outcome State Fault Refusal :=
  whenPassed c s (loadWordTransfer { p := false, u := u, w := true } rn rd (.imm imm12))

/-- LDR, pre-indexed, register offset (43_arm_loadstore R480, R481, R483). -/
def execArmLdrRegPre (c : Cond) (u w : Bool) (rn rd : RegNum) (amount : BitVec 5) (kind : ShiftKind) (rm : RegNum) (s : State) :
    Host.Outcome State Fault Refusal :=
  whenPassed c s (loadWordTransfer { p := true, u := u, w := w } rn rd (.reg amount kind rm))

/-- LDR, post-indexed, register offset (43_arm_loadstore R480, R481, R483). -/
def execArmLdrRegPost (c : Cond) (u : Bool) (rn rd : RegNum) (amount : BitVec 5) (kind : ShiftKind) (rm : RegNum) (s : State) :
    Host.Outcome State Fault Refusal :=
  whenPassed c s (loadWordTransfer { p := false, u := u, w := false } rn rd (.reg amount kind rm))

/-- LDRT, register offset (43_arm_loadstore R480, R486). -/
def execArmLdrtReg (c : Cond) (u : Bool) (rn rd : RegNum) (amount : BitVec 5) (kind : ShiftKind) (rm : RegNum) (s : State) :
    Host.Outcome State Fault Refusal :=
  whenPassed c s (loadWordTransfer { p := false, u := u, w := true } rn rd (.reg amount kind rm))

/-- STRB, pre-indexed, immediate offset (43_arm_loadstore R480, R485). -/
def execArmStrbImmPre (c : Cond) (u w : Bool) (rn rd : RegNum) (imm12 : BitVec 12) (s : State) :
    Host.Outcome State Fault Refusal :=
  whenPassed c s (storeByteTransfer { p := true, u := u, w := w } rn rd (.imm imm12))

/-- STRB, post-indexed, immediate offset (43_arm_loadstore R480, R485). -/
def execArmStrbImmPost (c : Cond) (u : Bool) (rn rd : RegNum) (imm12 : BitVec 12) (s : State) :
    Host.Outcome State Fault Refusal :=
  whenPassed c s (storeByteTransfer { p := false, u := u, w := false } rn rd (.imm imm12))

/-- STRBT, immediate offset (43_arm_loadstore R480, R487). -/
def execArmStrbtImm (c : Cond) (u : Bool) (rn rd : RegNum) (imm12 : BitVec 12) (s : State) :
    Host.Outcome State Fault Refusal :=
  whenPassed c s (storeByteTransfer { p := false, u := u, w := true } rn rd (.imm imm12))

/-- STRB, pre-indexed, register offset (43_arm_loadstore R480, R485). -/
def execArmStrbRegPre (c : Cond) (u w : Bool) (rn rd : RegNum) (amount : BitVec 5) (kind : ShiftKind) (rm : RegNum) (s : State) :
    Host.Outcome State Fault Refusal :=
  whenPassed c s (storeByteTransfer { p := true, u := u, w := w } rn rd (.reg amount kind rm))

/-- STRB, post-indexed, register offset (43_arm_loadstore R480, R485). -/
def execArmStrbRegPost (c : Cond) (u : Bool) (rn rd : RegNum) (amount : BitVec 5) (kind : ShiftKind) (rm : RegNum) (s : State) :
    Host.Outcome State Fault Refusal :=
  whenPassed c s (storeByteTransfer { p := false, u := u, w := false } rn rd (.reg amount kind rm))

/-- STRBT, register offset (43_arm_loadstore R480, R487). -/
def execArmStrbtReg (c : Cond) (u : Bool) (rn rd : RegNum) (amount : BitVec 5) (kind : ShiftKind) (rm : RegNum) (s : State) :
    Host.Outcome State Fault Refusal :=
  whenPassed c s (storeByteTransfer { p := false, u := u, w := true } rn rd (.reg amount kind rm))

/-- LDRB, pre-indexed, immediate offset (43_arm_loadstore R480, R484). -/
def execArmLdrbImmPre (c : Cond) (u w : Bool) (rn rd : RegNum) (imm12 : BitVec 12) (s : State) :
    Host.Outcome State Fault Refusal :=
  whenPassed c s (loadByteTransfer { p := true, u := u, w := w } rn rd (.imm imm12))

/-- LDRB, post-indexed, immediate offset (43_arm_loadstore R480, R484). -/
def execArmLdrbImmPost (c : Cond) (u : Bool) (rn rd : RegNum) (imm12 : BitVec 12) (s : State) :
    Host.Outcome State Fault Refusal :=
  whenPassed c s (loadByteTransfer { p := false, u := u, w := false } rn rd (.imm imm12))

/-- LDRBT, immediate offset (43_arm_loadstore R480, R486). -/
def execArmLdrbtImm (c : Cond) (u : Bool) (rn rd : RegNum) (imm12 : BitVec 12) (s : State) :
    Host.Outcome State Fault Refusal :=
  whenPassed c s (loadByteTransfer { p := false, u := u, w := true } rn rd (.imm imm12))

/-- LDRB, pre-indexed, register offset (43_arm_loadstore R480, R484). -/
def execArmLdrbRegPre (c : Cond) (u w : Bool) (rn rd : RegNum) (amount : BitVec 5) (kind : ShiftKind) (rm : RegNum) (s : State) :
    Host.Outcome State Fault Refusal :=
  whenPassed c s (loadByteTransfer { p := true, u := u, w := w } rn rd (.reg amount kind rm))

/-- LDRB, post-indexed, register offset (43_arm_loadstore R480, R484). -/
def execArmLdrbRegPost (c : Cond) (u : Bool) (rn rd : RegNum) (amount : BitVec 5) (kind : ShiftKind) (rm : RegNum) (s : State) :
    Host.Outcome State Fault Refusal :=
  whenPassed c s (loadByteTransfer { p := false, u := u, w := false } rn rd (.reg amount kind rm))

/-- LDRBT, register offset (43_arm_loadstore R480, R486). -/
def execArmLdrbtReg (c : Cond) (u : Bool) (rn rd : RegNum) (amount : BitVec 5) (kind : ShiftKind) (rm : RegNum) (s : State) :
    Host.Outcome State Fault Refusal :=
  whenPassed c s (loadByteTransfer { p := false, u := u, w := true } rn rd (.reg amount kind rm))

end Sys2Proof.Machine
end

