-- ==== Sys2Proof/Machine/ArmHalfword.lean ====
section
/-! DEFINITION. Machine/ArmHalfword.lean: LDRH, STRH, LDRSB and LDRSH (43_arm_loadstore R490 to R495), and the
refused store space (30_encoding R252 line 5). -/

namespace Sys2Proof.Machine

/-- The addressing checks of 43_arm_loadstore R490, in its order; `load` is bit L. -/
def halfwordChecks {α : Type} (x : Indexing) (rn rd : RegNum) (o : Offset8) (load : Bool) (rest : Except Refusal α) :
    Except Refusal α :=
  refuseIf o.usesPc .loadStoreOffsetPc <|
  refuseIf (!x.p && x.w) .halfwordPostIndexW <|
  refuseIf (x.writesBack && decide (rn = 15#4)) .writebackPc <|
  refuseIf (x.writesBack && load && decide (rn = rd)) .loadWritebackSameRegister <|
  refuseIf (decide (rd = 15#4)) .halfwordTransferPc rest

/-- Whether an address is odd (43_arm_loadstore R495). -/
def oddAddress (a : Word) : Bool := a.getLsbD 0

/-- A loaded value extended to 32 bits from its width. -/
def extendLoaded (signed : Bool) (w : Width) (v : Word) : Word :=
  match signed, w with
  | true, .byte => (v.extractLsb' 0 8).signExtend 32
  | true, .half => (v.extractLsb' 0 16).signExtend 32
  | true, .word => v
  | false, _ => v

/-- The halfword and signed-byte loads (43_arm_loadstore R491, R493, R494, R495). -/
def loadHalfwordTransfer (w : Width) (signed : Bool) (x : Indexing) (rn rd : RegNum) (o : Offset8) (s : State) :
    Except Refusal State :=
  halfwordChecks x rn rd o true <|
  refuseIf (decide (w = .half) && oddAddress (halfwordAddress x rn o s)) .unalignedHalfword <|
  (s.load w (halfwordAddress x rn o s)).bind fun v =>
    .ok ((s.writeback x.writesBack rn (halfwordMoved x rn o s)).writeReg rd (extendLoaded signed w v)).advance4

/-- STRH (43_arm_loadstore R492, R495). -/
def storeHalfwordTransfer (x : Indexing) (rn rd : RegNum) (o : Offset8) (s : State) : Except Refusal State :=
  halfwordChecks x rn rd o false <|
  refuseIf (oddAddress (halfwordAddress x rn o s)) .unalignedHalfword <|
  (s.store .half (halfwordAddress x rn o s) (s.armReg rd)).bind fun t =>
    .ok (t.writeback x.writesBack rn (halfwordMoved x rn o s)).advance4

/-- STRH, register offset (43_arm_loadstore R490, R492); bits 11..8 must be 0 (30_encoding R254). -/
def execArmStrhReg (c : Cond) (p u w : Bool) (rn rd : RegNum) (sbz : BitVec 4) (rm : RegNum) (s : State) :
    Host.Outcome State Fault Refusal :=
  whenPassed c s fun s =>
    refuseIf (decide (sbz ≠ 0#4)) .sbzSboViolation <|
    storeHalfwordTransfer { p := p, u := u, w := w } rn rd (.reg rm) s

/-- STRH, immediate offset (43_arm_loadstore R490, R492). -/
def execArmStrhImm (c : Cond) (p u w : Bool) (rn rd : RegNum) (immH immL : BitVec 4) (s : State) :
    Host.Outcome State Fault Refusal :=
  whenPassed c s (storeHalfwordTransfer { p := p, u := u, w := w } rn rd (.imm immH immL))

/-- LDRH, register offset (43_arm_loadstore R490, R491); bits 11..8 must be 0 (30_encoding R254). -/
def execArmLdrhReg (c : Cond) (p u w : Bool) (rn rd : RegNum) (sbz : BitVec 4) (rm : RegNum) (s : State) :
    Host.Outcome State Fault Refusal :=
  whenPassed c s fun s =>
    refuseIf (decide (sbz ≠ 0#4)) .sbzSboViolation <|
    loadHalfwordTransfer .half false { p := p, u := u, w := w } rn rd (.reg rm) s

/-- LDRH, immediate offset (43_arm_loadstore R490, R491). -/
def execArmLdrhImm (c : Cond) (p u w : Bool) (rn rd : RegNum) (immH immL : BitVec 4) (s : State) :
    Host.Outcome State Fault Refusal :=
  whenPassed c s (loadHalfwordTransfer .half false { p := p, u := u, w := w } rn rd (.imm immH immL))

/-- LDRSB, register offset (43_arm_loadstore R490, R493); bits 11..8 must be 0 (30_encoding R254). -/
def execArmLdrsbReg (c : Cond) (p u w : Bool) (rn rd : RegNum) (sbz : BitVec 4) (rm : RegNum) (s : State) :
    Host.Outcome State Fault Refusal :=
  whenPassed c s fun s =>
    refuseIf (decide (sbz ≠ 0#4)) .sbzSboViolation <|
    loadHalfwordTransfer .byte true { p := p, u := u, w := w } rn rd (.reg rm) s

/-- LDRSB, immediate offset (43_arm_loadstore R490, R493). -/
def execArmLdrsbImm (c : Cond) (p u w : Bool) (rn rd : RegNum) (immH immL : BitVec 4) (s : State) :
    Host.Outcome State Fault Refusal :=
  whenPassed c s (loadHalfwordTransfer .byte true { p := p, u := u, w := w } rn rd (.imm immH immL))

/-- LDRSH, register offset (43_arm_loadstore R490, R494); bits 11..8 must be 0 (30_encoding R254). -/
def execArmLdrshReg (c : Cond) (p u w : Bool) (rn rd : RegNum) (sbz : BitVec 4) (rm : RegNum) (s : State) :
    Host.Outcome State Fault Refusal :=
  whenPassed c s fun s =>
    refuseIf (decide (sbz ≠ 0#4)) .sbzSboViolation <|
    loadHalfwordTransfer .half true { p := p, u := u, w := w } rn rd (.reg rm) s

/-- LDRSH, immediate offset (43_arm_loadstore R490, R494). -/
def execArmLdrshImm (c : Cond) (p u w : Bool) (rn rd : RegNum) (immH immL : BitVec 4) (s : State) :
    Host.Outcome State Fault Refusal :=
  whenPassed c s (loadHalfwordTransfer .half true { p := p, u := u, w := w } rn rd (.imm immH immL))

/-- A store with SH = 10 or 11, whatever its other bits (30_encoding R252 line 5): refused once its condition
passes. -/
def execArmStrhDspace (c : Cond) (_puiw : BitVec 4) (_mid : BitVec 12) (_sh0 : Bool) (_low : BitVec 4) (s : State) :
    Host.Outcome State Fault Refusal :=
  whenPassed c s fun _ => .error .halfwordLoadStoreDoubleSpace

end Sys2Proof.Machine
end

