-- ==== Sys2Proof/Machine/ArmMultiply.lean ====
section
/-! DEFINITION. Machine/ArmMultiply.lean: multiply, multiply long and swap (42_arm_multiply_swap). -/

namespace Sys2Proof.Machine

/-! ### Multiply -/

/-- The forbidden operands of MUL and MLA (42_arm_multiply_swap R456); `rn` is the accumulator of MLA. -/
def multiplyForbidden (rd rn rs rm : RegNum) : Bool :=
  decide (rd = 15#4) || decide (rn = 15#4) || decide (rs = 15#4) || decide (rm = 15#4) || decide (rd = rm)

/-- The end of MUL and MLA: Rd, and the flags of R457 when S = 1. -/
def multiplyWrite (setFlags : Bool) (rd : RegNum) (res : Word) (s : State) : State :=
  { (s.writeReg rd res) with
    cpsr := if setFlags then s.cpsr.setMultiply res s.draws else s.cpsr
    pc := s.pc + 4#32 }

/-- The forbidden operands of the long forms (42_arm_multiply_swap R456). -/
def multiplyLongForbidden (rdHi rdLo rs rm : RegNum) : Bool :=
  decide (rdHi = 15#4) || decide (rdLo = 15#4) || decide (rs = 15#4) || decide (rm = 15#4) ||
  decide (rdHi = rdLo) || decide (rdHi = rm) || decide (rdLo = rm)

/-- The exact product of the long forms as a 64-bit pattern: unsigned or signed operands (R452, R454). -/
def longProduct (signed : Bool) (a b : Word) : BitVec 64 :=
  if signed then BitVec.ofInt 64 (a.toInt * b.toInt) else BitVec.ofNat 64 (a.toNat * b.toNat)

/-- RdHi : RdLo (R453, R455). -/
def longAccumulator (rdHi rdLo : RegNum) (s : State) : BitVec 64 := s.armReg rdHi ++ s.armReg rdLo

/-- The end of the long forms: RdLo, then RdHi, and the flags of R457 when S = 1. -/
def multiplyLongWrite (setFlags : Bool) (rdHi rdLo : RegNum) (p : BitVec 64) (s : State) : State :=
  { ((s.writeReg rdLo (p.extractLsb' 0 32)).writeReg rdHi (p.extractLsb' 32 32)) with
    cpsr := if setFlags then s.cpsr.setMultiplyLong p s.draws else s.cpsr
    pc := s.pc + 4#32 }

/-- The long forms (R452 to R455). -/
def multiplyLong (signed accumulate setFlags : Bool) (rdHi rdLo rs rm : RegNum) (s : State) : Except Refusal State :=
  refuseIf (multiplyLongForbidden rdHi rdLo rs rm) .multiplyOperands <|
  .ok (multiplyLongWrite setFlags rdHi rdLo
    (longProduct signed (s.armReg rm) (s.armReg rs) + (if accumulate then longAccumulator rdHi rdLo s else 0#64)) s)

/-- MUL (42_arm_multiply_swap R450); bits 15..12 must be 0 (30_encoding R254). -/
def execArmMul (c : Cond) (setFlags : Bool) (rd : RegNum) (sbz : BitVec 4) (rs rm : RegNum) (s : State) :
    Host.Outcome State Fault Refusal :=
  whenPassed c s fun s =>
    refuseIf (decide (sbz ≠ 0#4)) .sbzSboViolation <|
    refuseIf (multiplyForbidden rd 0#4 rs rm) .multiplyOperands <|
    .ok (multiplyWrite setFlags rd (s.armReg rm * s.armReg rs) s)

/-- MLA (42_arm_multiply_swap R451). -/
def execArmMla (c : Cond) (setFlags : Bool) (rd rn rs rm : RegNum) (s : State) : Host.Outcome State Fault Refusal :=
  whenPassed c s fun s =>
    refuseIf (multiplyForbidden rd rn rs rm) .multiplyOperands <|
    .ok (multiplyWrite setFlags rd (s.armReg rm * s.armReg rs + s.armReg rn) s)

/-- UMULL (42_arm_multiply_swap R452). -/
def execArmUmull (c : Cond) (setFlags : Bool) (rdHi rdLo rs rm : RegNum) (s : State) :
    Host.Outcome State Fault Refusal :=
  whenPassed c s (multiplyLong false false setFlags rdHi rdLo rs rm)

/-- UMLAL (42_arm_multiply_swap R453). -/
def execArmUmlal (c : Cond) (setFlags : Bool) (rdHi rdLo rs rm : RegNum) (s : State) :
    Host.Outcome State Fault Refusal :=
  whenPassed c s (multiplyLong false true setFlags rdHi rdLo rs rm)

/-- SMULL (42_arm_multiply_swap R454). -/
def execArmSmull (c : Cond) (setFlags : Bool) (rdHi rdLo rs rm : RegNum) (s : State) :
    Host.Outcome State Fault Refusal :=
  whenPassed c s (multiplyLong true false setFlags rdHi rdLo rs rm)

/-- SMLAL (42_arm_multiply_swap R455). -/
def execArmSmlal (c : Cond) (setFlags : Bool) (rdHi rdLo rs rm : RegNum) (s : State) :
    Host.Outcome State Fault Refusal :=
  whenPassed c s (multiplyLong true true setFlags rdHi rdLo rs rm)

/-! ### Swap -/

/-- The forbidden operands of SWP and SWPB (42_arm_multiply_swap R462). -/
def swapForbidden (rn rd rm : RegNum) : Bool :=
  decide (rd = 15#4) || decide (rn = 15#4) || decide (rm = 15#4) || decide (rn = rm) || decide (rn = rd)

/-- SWP (42_arm_multiply_swap R460): the read, then the write, then Rd; bits 11..8 must be 0 (30_encoding R254). -/
def execArmSwp (c : Cond) (rn rd : RegNum) (sbz : BitVec 4) (rm : RegNum) (s : State) :
    Host.Outcome State Fault Refusal :=
  whenPassed c s fun s =>
    refuseIf (decide (sbz ≠ 0#4)) .sbzSboViolation <|
    refuseIf (swapForbidden rn rd rm) .swapOperands <|
    (s.loadRotated (s.armReg rn)).bind fun w =>
    (s.store .word (s.armReg rn) (s.armReg rm)).bind fun t => .ok (t.writeReg rd w).advance4

/-- SWPB (42_arm_multiply_swap R461). -/
def execArmSwpb (c : Cond) (rn rd : RegNum) (sbz : BitVec 4) (rm : RegNum) (s : State) :
    Host.Outcome State Fault Refusal :=
  whenPassed c s fun s =>
    refuseIf (decide (sbz ≠ 0#4)) .sbzSboViolation <|
    refuseIf (swapForbidden rn rd rm) .swapOperands <|
    (s.load .byte (s.armReg rn)).bind fun b =>
    (s.store .byte (s.armReg rn) (s.armReg rm)).bind fun t => .ok (t.writeReg rd b).advance4

end Sys2Proof.Machine
end

