-- ==== Sys2Proof/Machine/ArmPsr.lean ====
section
/-! DEFINITION. Machine/ArmPsr.lean: MRS and MSR (41_arm_dataproc R416, R417). -/

namespace Sys2Proof.Machine

/-- MRS (41_arm_dataproc R416; the fields of 30_encoding R254). -/
def mrsBody (spsr : Bool) (sbo : BitVec 4) (rd : RegNum) (sbzHigh sbzLow : BitVec 4) (s : State) :
    Except Refusal State :=
  refuseIf (decide (sbo ≠ 0xF#4) || decide (sbzHigh ≠ 0#4) || decide (sbzLow ≠ 0#4)) .sbzSboViolation <|
  refuseIf (decide (rd = 15#4)) .mrsToPc <|
  if spsr then
    match s.spsrs.get? s.cpsr.mode with
    | none => .error .noSpsrInMode
    | some v => .ok (s.writeReg rd v).advance4
  else .ok (s.writeReg rd s.cpsr.toWord).advance4

/-- The bits an MSR field mask selects (30_encoding R258), reserved bits 27..8 left out (41_arm_dataproc R417). -/
def msrByteMask (mask : BitVec 4) : Word :=
  ((if mask.getLsbD 3 then 0xFF000000#32 else 0#32) ||| (if mask.getLsbD 2 then 0x00FF0000#32 else 0#32) |||
    (if mask.getLsbD 1 then 0x0000FF00#32 else 0#32) ||| (if mask.getLsbD 0 then 0x000000FF#32 else 0#32)) &&&
  0xF00000FF#32

/-- The bits MSR writes of CPSR: in User mode only the flags (41_arm_dataproc R417, 60_exceptions R885). -/
def msrCpsrMask (mask : BitVec 4) (m : Mode) : Word :=
  if m.privileged then msrByteMask mask else msrByteMask mask &&& 0xF0000000#32

/-- `(old AND NOT bytemask) OR (v AND bytemask)`. -/
def mergeMasked (old v mask : Word) : Word := (old &&& ~~~mask) ||| (v &&& mask)

/-- MSR to CPSR (41_arm_dataproc R417, R = 0). -/
def msrCpsr (mask : BitVec 4) (v : Word) (s : State) : Except Refusal State :=
  refuseIf (decide ((mergeMasked s.cpsr.toWord v (msrCpsrMask mask s.cpsr.mode)).getLsbD 5 ≠ s.cpsr.t))
    .msrChangesT <|
  match Mode.ofBits? ((mergeMasked s.cpsr.toWord v (msrCpsrMask mask s.cpsr.mode)).extractLsb' 0 5) with
  | none => .error .illegalMode
  | some m =>
    .ok { s with
      cpsr := Cpsr.ofWord (mergeMasked s.cpsr.toWord v (msrCpsrMask mask s.cpsr.mode)) m
      pc := s.pc + 4#32 }

/-- MSR to SPSR (41_arm_dataproc R417, R = 1). -/
def msrSpsr (mask : BitVec 4) (v : Word) (s : State) : Except Refusal State :=
  match s.spsrs.get? s.cpsr.mode with
  | none => .error .noSpsrInMode
  | some old =>
    .ok { s with spsrs := s.spsrs.set s.cpsr.mode (mergeMasked old v (msrByteMask mask)), pc := s.pc + 4#32 }

/-- MSR with its operand value (41_arm_dataproc R417). -/
def msrWrite (spsr : Bool) (mask : BitVec 4) (v : Word) (s : State) : Except Refusal State :=
  if spsr then msrSpsr mask v s else msrCpsr mask v s

/-- MRS (41_arm_dataproc R416). -/
def execArmMrs (c : Cond) (spsr : Bool) (sbo : BitVec 4) (rd : RegNum) (sbzHigh sbzLow : BitVec 4) (s : State) :
    Host.Outcome State Fault Refusal :=
  whenPassed c s (mrsBody spsr sbo rd sbzHigh sbzLow)

/-- MSR, register operand (41_arm_dataproc R417, format A5). -/
def execArmMsrReg (c : Cond) (spsr : Bool) (mask sbo sbz : BitVec 4) (rm : RegNum) (s : State) :
    Host.Outcome State Fault Refusal :=
  whenPassed c s fun s =>
    refuseIf (decide (sbo ≠ 0xF#4) || decide (sbz ≠ 0#4)) .sbzSboViolation <|
    refuseIf (decide (rm = 15#4)) .msrFromPc <|
    msrWrite spsr mask (s.armReg rm) s

/-- MSR, immediate operand (41_arm_dataproc R417, format A6). -/
def execArmMsrImm (c : Cond) (spsr : Bool) (mask sbo rot : BitVec 4) (imm8 : BitVec 8) (s : State) :
    Host.Outcome State Fault Refusal :=
  whenPassed c s fun s =>
    refuseIf (decide (sbo ≠ 0xF#4)) .sbzSboViolation <|
    msrWrite spsr mask (rotatedImm rot imm8 s.cpsr.c).1 s

end Sys2Proof.Machine
end

