-- ==== Sys2Proof/Machine/ThumbAlu.lean ====
section
/-! DEFINITION. Machine/ThumbAlu.lean: the Thumb data-processing instructions (45_thumb_alu). -/

namespace Sys2Proof.Machine

/-! ### Shared ends (45_thumb_alu R620) -/

/-- Rd and "sets NZC" from a shifter result. -/
def thumbShifted (rd : LowReg) (r : Word × Bool) (s : State) : State :=
  { (s.setLow rd r.1) with cpsr := s.cpsr.setLogical r.1 r.2, pc := s.pc + 2#32 }

/-- Rd and "sets NZCV" from an arithmetic result. -/
def thumbArithmetic (rd : LowReg) (r : AluResult) (s : State) : State :=
  { (s.setLow rd r.result) with cpsr := s.cpsr.setArithmetic r, pc := s.pc + 2#32 }

/-- Rd and "sets NZ". -/
def thumbLogical (rd : LowReg) (res : Word) (s : State) : State :=
  { (s.setLow rd res) with cpsr := s.cpsr.setNZ res, pc := s.pc + 2#32 }

/-- "Sets NZCV", nothing else written. -/
def thumbCompare (r : AluResult) (s : State) : State :=
  { s with cpsr := s.cpsr.setArithmetic r, pc := s.pc + 2#32 }

/-- A register written without flags; r13 or a low register. -/
def thumbMoveTo (d : RegNum) (v : Word) (s : State) : State := (s.writeReg d v).advance2

/-- The amount of a register-specified shift: R[Rs][7:0]. -/
def shiftAmount (rs : LowReg) (s : State) : Nat := ((s.low rs).extractLsb' 0 8).toNat

/-- Whether both registers of format T5 are low: H1 = H2 = 0 (45_thumb_alu R603). -/
def bothLow (r d : RegNum) : Bool := !r.getLsbD 3 && !d.getLsbD 3

/-- The end of ADD and MOV of format T5: Rd, or the branch of 45_thumb_alu R606. -/
def thumbHiWrite (d : RegNum) (res : Word) (s : State) : State :=
  if d = 15#4 then s.branchThumb res else thumbMoveTo d res s

/-- LSL, immediate (45_thumb_alu R580). -/
def execThumbLslImm (off5 : BitVec 5) (rs rd : LowReg) (s : State) : Host.Outcome State Fault Refusal :=
  .next (thumbShifted rd (shiftImmOp .lsl (s.low rs) off5.toNat s.cpsr.c) s)

/-- LSR, immediate (45_thumb_alu R581). -/
def execThumbLsrImm (off5 : BitVec 5) (rs rd : LowReg) (s : State) : Host.Outcome State Fault Refusal :=
  .next (thumbShifted rd (shiftImmOp .lsr (s.low rs) off5.toNat s.cpsr.c) s)

/-- ASR, immediate (45_thumb_alu R582). -/
def execThumbAsrImm (off5 : BitVec 5) (rs rd : LowReg) (s : State) : Host.Outcome State Fault Refusal :=
  .next (thumbShifted rd (shiftImmOp .asr (s.low rs) off5.toNat s.cpsr.c) s)

/-- ADD, register (45_thumb_alu R583). -/
def execThumbAddReg (rn rs rd : LowReg) (s : State) : Host.Outcome State Fault Refusal :=
  .next (thumbArithmetic rd (aluAdd (s.low rs) (s.low rn)) s)

/-- SUB, register (45_thumb_alu R584). -/
def execThumbSubReg (rn rs rd : LowReg) (s : State) : Host.Outcome State Fault Refusal :=
  .next (thumbArithmetic rd (aluSub (s.low rs) (s.low rn)) s)

/-- ADD, 3-bit immediate (45_thumb_alu R585). -/
def execThumbAddImm3 (off3 : BitVec 3) (rs rd : LowReg) (s : State) : Host.Outcome State Fault Refusal :=
  .next (thumbArithmetic rd (aluAdd (s.low rs) (zextShift off3 0)) s)

/-- SUB, 3-bit immediate (45_thumb_alu R586). -/
def execThumbSubImm3 (off3 : BitVec 3) (rs rd : LowReg) (s : State) : Host.Outcome State Fault Refusal :=
  .next (thumbArithmetic rd (aluSub (s.low rs) (zextShift off3 0)) s)

/-- MOV, immediate (45_thumb_alu R587). -/
def execThumbMovImm (rd : LowReg) (off8 : BitVec 8) (s : State) : Host.Outcome State Fault Refusal :=
  .next (thumbLogical rd (zextShift off8 0) s)

/-- CMP, immediate (45_thumb_alu R588). -/
def execThumbCmpImm (rd : LowReg) (off8 : BitVec 8) (s : State) : Host.Outcome State Fault Refusal :=
  .next (thumbCompare (aluSub (s.low rd) (zextShift off8 0)) s)

/-- ADD, 8-bit immediate (45_thumb_alu R589). -/
def execThumbAddImm8 (rd : LowReg) (off8 : BitVec 8) (s : State) : Host.Outcome State Fault Refusal :=
  .next (thumbArithmetic rd (aluAdd (s.low rd) (zextShift off8 0)) s)

/-- SUB, 8-bit immediate (45_thumb_alu R590). -/
def execThumbSubImm8 (rd : LowReg) (off8 : BitVec 8) (s : State) : Host.Outcome State Fault Refusal :=
  .next (thumbArithmetic rd (aluSub (s.low rd) (zextShift off8 0)) s)

/-- AND (45_thumb_alu R591). -/
def execThumbAnd (rs rd : LowReg) (s : State) : Host.Outcome State Fault Refusal :=
  .next (thumbLogical rd (s.low rd &&& s.low rs) s)

/-- EOR (45_thumb_alu R592). -/
def execThumbEor (rs rd : LowReg) (s : State) : Host.Outcome State Fault Refusal :=
  .next (thumbLogical rd (s.low rd ^^^ s.low rs) s)

/-- LSL, register (45_thumb_alu R593). -/
def execThumbLslReg (rs rd : LowReg) (s : State) : Host.Outcome State Fault Refusal :=
  .next (thumbShifted rd (shiftRegOp .lsl (s.low rd) (shiftAmount rs s) s.cpsr.c) s)

/-- LSR, register (45_thumb_alu R594). -/
def execThumbLsrReg (rs rd : LowReg) (s : State) : Host.Outcome State Fault Refusal :=
  .next (thumbShifted rd (shiftRegOp .lsr (s.low rd) (shiftAmount rs s) s.cpsr.c) s)

/-- ASR, register (45_thumb_alu R595). -/
def execThumbAsrReg (rs rd : LowReg) (s : State) : Host.Outcome State Fault Refusal :=
  .next (thumbShifted rd (shiftRegOp .asr (s.low rd) (shiftAmount rs s) s.cpsr.c) s)

/-- ADC (45_thumb_alu R596). -/
def execThumbAdc (rs rd : LowReg) (s : State) : Host.Outcome State Fault Refusal :=
  .next (thumbArithmetic rd (aluAdc (s.low rd) (s.low rs) s.cpsr.c) s)

/-- SBC (45_thumb_alu R597). -/
def execThumbSbc (rs rd : LowReg) (s : State) : Host.Outcome State Fault Refusal :=
  .next (thumbArithmetic rd (aluSbc (s.low rd) (s.low rs) s.cpsr.c) s)

/-- ROR, register (45_thumb_alu R598). -/
def execThumbRorReg (rs rd : LowReg) (s : State) : Host.Outcome State Fault Refusal :=
  .next (thumbShifted rd (shiftRegOp .ror (s.low rd) (shiftAmount rs s) s.cpsr.c) s)

/-- TST (45_thumb_alu R599). -/
def execThumbTst (rs rd : LowReg) (s : State) : Host.Outcome State Fault Refusal :=
  .next { s with cpsr := s.cpsr.setNZ (s.low rd &&& s.low rs), pc := s.pc + 2#32 }

/-- NEG (45_thumb_alu R600). -/
def execThumbNeg (rs rd : LowReg) (s : State) : Host.Outcome State Fault Refusal :=
  .next (thumbArithmetic rd (aluSub 0#32 (s.low rs)) s)

/-- CMP, low registers (45_thumb_alu R601). -/
def execThumbCmpReg (rs rd : LowReg) (s : State) : Host.Outcome State Fault Refusal :=
  .next (thumbCompare (aluSub (s.low rd) (s.low rs)) s)

/-- CMN (45_thumb_alu R602). -/
def execThumbCmn (rs rd : LowReg) (s : State) : Host.Outcome State Fault Refusal :=
  .next (thumbCompare (aluAdd (s.low rd) (s.low rs)) s)

/-- ORR (45_thumb_alu R608). -/
def execThumbOrr (rs rd : LowReg) (s : State) : Host.Outcome State Fault Refusal :=
  .next (thumbLogical rd (s.low rd ||| s.low rs) s)

/-- MUL (45_thumb_alu R609); C is a draw (42_arm_multiply_swap R457). -/
def execThumbMul (rs rd : LowReg) (s : State) : Host.Outcome State Fault Refusal :=
  outcome <| refuseIf (decide (rd = rs)) .multiplyOperands <|
  .ok { (s.setLow rd (s.low rs * s.low rd)) with
    cpsr := s.cpsr.setMultiply (s.low rs * s.low rd) s.draws
    pc := s.pc + 2#32 }

/-- BIC (45_thumb_alu R613). -/
def execThumbBic (rs rd : LowReg) (s : State) : Host.Outcome State Fault Refusal :=
  .next (thumbLogical rd (s.low rd &&& ~~~(s.low rs)) s)

/-- MVN (45_thumb_alu R614). -/
def execThumbMvn (rs rd : LowReg) (s : State) : Host.Outcome State Fault Refusal :=
  .next (thumbLogical rd (~~~(s.low rs)) s)

/-- ADD, high registers; `r` is H2 : Rs and `d` is H1 : Rd (45_thumb_alu R603, R606). -/
def execThumbAddHi (r d : RegNum) (s : State) : Host.Outcome State Fault Refusal :=
  outcome <| refuseIf (bothLow r d) .hiRegOpLowRegisters <|
  .ok (thumbHiWrite d (s.thumbReg d + s.thumbReg r) s)

/-- CMP, high registers (45_thumb_alu R604). -/
def execThumbCmpHi (r d : RegNum) (s : State) : Host.Outcome State Fault Refusal :=
  outcome <| refuseIf (bothLow r d) .hiRegOpLowRegisters <|
  .ok (thumbCompare (aluSub (s.thumbReg d) (s.thumbReg r)) s)

/-- MOV, high registers (45_thumb_alu R605, R606). -/
def execThumbMovHi (r d : RegNum) (s : State) : Host.Outcome State Fault Refusal :=
  outcome <| refuseIf (bothLow r d) .hiRegOpLowRegisters <|
  .ok (thumbHiWrite d (s.thumbReg r) s)

/-- BX (45_thumb_alu R607). -/
def execThumbBx (h1 : Bool) (r : RegNum) (sbz : BitVec 3) (s : State) : Host.Outcome State Fault Refusal :=
  outcome <| refuseIf (h1 || decide (sbz ≠ 0#3)) .thumbBxFields <| s.branchExchange (s.thumbReg r)

/-- ADD Rd, PC, #imm (45_thumb_alu R610). -/
def execThumbAddPc (rd : LowReg) (word8 : BitVec 8) (s : State) : Host.Outcome State Fault Refusal :=
  .next (thumbMoveTo (lowReg rd) (s.alignedPc + zextShift word8 2) s)

/-- ADD Rd, SP, #imm (45_thumb_alu R611). -/
def execThumbAddSp (rd : LowReg) (word8 : BitVec 8) (s : State) : Host.Outcome State Fault Refusal :=
  .next (thumbMoveTo (lowReg rd) (s.thumbReg 13#4 + zextShift word8 2) s)

/-- ADD SP, #imm (45_thumb_alu R612). -/
def execThumbAddSpImm (sword7 : BitVec 7) (s : State) : Host.Outcome State Fault Refusal :=
  .next (thumbMoveTo 13#4 (s.thumbReg 13#4 + zextShift sword7 2) s)

/-- SUB SP, #imm (45_thumb_alu R615). -/
def execThumbSubSpImm (sword7 : BitVec 7) (s : State) : Host.Outcome State Fault Refusal :=
  .next (thumbMoveTo 13#4 (s.thumbReg 13#4 - zextShift sword7 2) s)

end Sys2Proof.Machine
end

