-- ==== Sys2Proof/Machine/ThumbBlock.lean ====
section
/-! DEFINITION. Machine/ThumbBlock.lean: PUSH, POP, STMIA and LDMIA (46_thumb_mem_branch R657 to R662). -/

namespace Sys2Proof.Machine

/-- An 8-bit list of low registers as a 16-bit list. -/
def lowList (rlist : BitVec 8) : BitVec 16 := rlist.setWidth 16

/-- The words of a list with their addresses, from an address on, low to high. -/
def listStores (start : Word) (rlist : BitVec 16) (s : State) : List (Word × Word) :=
  (blockSlots start (listedRegs rlist)).map (fun x => (x.2, s.thumbReg x.1))

/-- The addresses of a list, from an address on, low to high. -/
def listAddresses (start : Word) (rlist : BitVec 16) : List Word :=
  (blockSlots start (listedRegs rlist)).map (fun x => x.2)

/-- PUSH of a list that is r0..r7 and perhaps r14 (46_thumb_mem_branch R657, R658). -/
def pushBody (list : BitVec 16) (s : State) : Except Refusal State :=
  refuseIf (decide (list = 0#16)) .emptyRegisterList <|
  (s.storeAll (listStores (s.thumbReg 13#4 - listBytes list) list s)).bind fun t =>
    .ok (t.writeReg 13#4 (s.thumbReg 13#4 - listBytes list)).advance2

/-- POP of a list that is r0..r7 and perhaps r15 (46_thumb_mem_branch R659, R660). -/
def popBody (list : BitVec 16) (s : State) : Except Refusal State :=
  refuseIf (decide (list = 0#16)) .emptyRegisterList <|
  (s.loadAll (listAddresses (s.thumbReg 13#4) list)).bind fun vs =>
    let t := (s.writeListed s.cpsr.mode ((listedRegs list).zip vs)).writeReg 13#4 (s.thumbReg 13#4 + listBytes list)
    if inList list 15#4 then .ok (t.branchThumb (loadedPc vs)) else .ok t.advance2

/-- STMIA (46_thumb_mem_branch R661). -/
def stmiaBody (rb : LowReg) (rlist : BitVec 8) (s : State) : Except Refusal State :=
  refuseIf (decide (rlist = 0#8)) .emptyRegisterList <|
  refuseIf (baseNotFirst (lowList rlist) (lowReg rb)) .stmWritebackBaseNotFirst <|
  (s.storeAll (listStores (s.low rb) (lowList rlist) s)).bind fun t =>
    .ok (t.setLow rb (s.low rb + listBytes (lowList rlist))).advance2

/-- LDMIA (46_thumb_mem_branch R662): the writeback, then the loads, so a listed base keeps its loaded value. -/
def ldmiaBody (rb : LowReg) (rlist : BitVec 8) (s : State) : Except Refusal State :=
  refuseIf (decide (rlist = 0#8)) .emptyRegisterList <|
  (s.loadAll (listAddresses (s.low rb) (lowList rlist))).bind fun vs =>
    .ok ((s.setLow rb (s.low rb + listBytes (lowList rlist))).writeListed s.cpsr.mode
      ((listedRegs (lowList rlist)).zip vs)).advance2

/-- PUSH (46_thumb_mem_branch R657). -/
def execThumbPush (rlist : BitVec 8) (s : State) : Host.Outcome State Fault Refusal :=
  outcome (pushBody (lowList rlist) s)

/-- PUSH with LR (46_thumb_mem_branch R658). -/
def execThumbPushLr (rlist : BitVec 8) (s : State) : Host.Outcome State Fault Refusal :=
  outcome (pushBody (lowList rlist ||| 0x4000#16) s)

/-- POP (46_thumb_mem_branch R659). -/
def execThumbPop (rlist : BitVec 8) (s : State) : Host.Outcome State Fault Refusal :=
  outcome (popBody (lowList rlist) s)

/-- POP with PC (46_thumb_mem_branch R660). -/
def execThumbPopPc (rlist : BitVec 8) (s : State) : Host.Outcome State Fault Refusal :=
  outcome (popBody (lowList rlist ||| 0x8000#16) s)

/-- STMIA (46_thumb_mem_branch R661). -/
def execThumbStmia (rb : LowReg) (rlist : BitVec 8) (s : State) : Host.Outcome State Fault Refusal :=
  outcome (stmiaBody rb rlist s)

/-- LDMIA (46_thumb_mem_branch R662). -/
def execThumbLdmia (rb : LowReg) (rlist : BitVec 8) (s : State) : Host.Outcome State Fault Refusal :=
  outcome (ldmiaBody rb rlist s)

end Sys2Proof.Machine
end

