-- ==== Sys2Proof/Machine/ThumbBranch.lean ====
section
/-! DEFINITION. Machine/ThumbBranch.lean: Thumb branches, software interrupt and Undefined (46_thumb_mem_branch R670
to R690). -/

namespace Sys2Proof.Machine

/-- A conditional branch (46_thumb_mem_branch R670). -/
def thumbCondBranch (c : Cond) (soff8 : BitVec 8) (s : State) : State :=
  if condPassed c s.cpsr then { s with pc := s.pc + 4#32 + (soff8 ++ 0#1 : BitVec 9).signExtend 32 } else s.advance2

/-- BEQ (46_thumb_mem_branch R670). -/
def execThumbBeq (soff8 : BitVec 8) (s : State) : Host.Outcome State Fault Refusal :=
  .next (thumbCondBranch .eq soff8 s)

/-- BNE (46_thumb_mem_branch R670). -/
def execThumbBne (soff8 : BitVec 8) (s : State) : Host.Outcome State Fault Refusal :=
  .next (thumbCondBranch .ne soff8 s)

/-- BCS (46_thumb_mem_branch R670). -/
def execThumbBcs (soff8 : BitVec 8) (s : State) : Host.Outcome State Fault Refusal :=
  .next (thumbCondBranch .cs soff8 s)

/-- BCC (46_thumb_mem_branch R670). -/
def execThumbBcc (soff8 : BitVec 8) (s : State) : Host.Outcome State Fault Refusal :=
  .next (thumbCondBranch .cc soff8 s)

/-- BMI (46_thumb_mem_branch R670). -/
def execThumbBmi (soff8 : BitVec 8) (s : State) : Host.Outcome State Fault Refusal :=
  .next (thumbCondBranch .mi soff8 s)

/-- BPL (46_thumb_mem_branch R670). -/
def execThumbBpl (soff8 : BitVec 8) (s : State) : Host.Outcome State Fault Refusal :=
  .next (thumbCondBranch .pl soff8 s)

/-- BVS (46_thumb_mem_branch R670). -/
def execThumbBvs (soff8 : BitVec 8) (s : State) : Host.Outcome State Fault Refusal :=
  .next (thumbCondBranch .vs soff8 s)

/-- BVC (46_thumb_mem_branch R670). -/
def execThumbBvc (soff8 : BitVec 8) (s : State) : Host.Outcome State Fault Refusal :=
  .next (thumbCondBranch .vc soff8 s)

/-- BHI (46_thumb_mem_branch R670). -/
def execThumbBhi (soff8 : BitVec 8) (s : State) : Host.Outcome State Fault Refusal :=
  .next (thumbCondBranch .hi soff8 s)

/-- BLS (46_thumb_mem_branch R670). -/
def execThumbBls (soff8 : BitVec 8) (s : State) : Host.Outcome State Fault Refusal :=
  .next (thumbCondBranch .ls soff8 s)

/-- BGE (46_thumb_mem_branch R670). -/
def execThumbBge (soff8 : BitVec 8) (s : State) : Host.Outcome State Fault Refusal :=
  .next (thumbCondBranch .ge soff8 s)

/-- BLT (46_thumb_mem_branch R670). -/
def execThumbBlt (soff8 : BitVec 8) (s : State) : Host.Outcome State Fault Refusal :=
  .next (thumbCondBranch .lt soff8 s)

/-- BGT (46_thumb_mem_branch R670). -/
def execThumbBgt (soff8 : BitVec 8) (s : State) : Host.Outcome State Fault Refusal :=
  .next (thumbCondBranch .gt soff8 s)

/-- BLE (46_thumb_mem_branch R670). -/
def execThumbBle (soff8 : BitVec 8) (s : State) : Host.Outcome State Fault Refusal :=
  .next (thumbCondBranch .le soff8 s)

/-- Undefined: format T16 with condition 1110 (46_thumb_mem_branch R690). -/
def execThumbUndefCond (_low : BitVec 8) (s : State) : Host.Outcome State Fault Refusal :=
  .next (s.raiseHere .undefined)

/-- SWI (46_thumb_mem_branch R671); the value is ignored. -/
def execThumbSwi (_value8 : BitVec 8) (s : State) : Host.Outcome State Fault Refusal :=
  .next (s.raiseHere .swi)

/-- B (46_thumb_mem_branch R672). -/
def execThumbB (off11 : BitVec 11) (s : State) : Host.Outcome State Fault Refusal :=
  .next { s with pc := s.pc + 4#32 + (off11 ++ 0#1 : BitVec 12).signExtend 32 }

/-- Undefined: h[15:11] = 11101 (46_thumb_mem_branch R690). -/
def execThumbUndefLong (_low : BitVec 11) (s : State) : Host.Outcome State Fault Refusal :=
  .next (s.raiseHere .undefined)

/-- BL, first half (46_thumb_mem_branch R680). -/
def execThumbBlHi (off11 : BitVec 11) (s : State) : Host.Outcome State Fault Refusal :=
  .next (s.writeReg 14#4 (s.pc + 4#32 + (off11.signExtend 32 <<< 12))).advance2

/-- BL, second half (46_thumb_mem_branch R681). -/
def execThumbBlLo (off11 : BitVec 11) (s : State) : Host.Outcome State Fault Refusal :=
  .next ((s.writeReg 14#4 ((s.pc + 2#32) ||| 1#32)).branchThumb (s.thumbReg 14#4 + zextShift off11 1))

/-- Undefined: h[15:12] = 1011, neither T13 nor T14 (46_thumb_mem_branch R690). -/
def execThumbUndefMisc (_op : BitVec 4) (_low : BitVec 8) (s : State) : Host.Outcome State Fault Refusal :=
  .next (s.raiseHere .undefined)

end Sys2Proof.Machine
end

