-- ==== Sys2Proof/Machine/ThumbMem.lean ====
section
/-! DEFINITION. Machine/ThumbMem.lean: the Thumb single loads and stores (46_thumb_mem_branch R640 to R656). -/

namespace Sys2Proof.Machine

/-- A Thumb store of `v` at `a`: word and byte at any address. -/
def thumbStore (w : Width) (a v : Word) (s : State) : Except Refusal State :=
  (s.store w a v).bind fun t => .ok t.advance2

/-- A Thumb halfword store: an odd address is refused (43_arm_loadstore R495). -/
def thumbStoreHalf (a v : Word) (s : State) : Except Refusal State :=
  refuseIf (oddAddress a) .unalignedHalfword (thumbStore .half a v s)

/-- A Thumb word load: the rotated word (43_arm_loadstore R481). -/
def thumbLoadWord (a : Word) (rd : LowReg) (s : State) : Except Refusal State :=
  (s.loadRotated a).bind fun v => .ok (s.setLow rd v).advance2

/-- A Thumb byte or halfword load, extended; an odd halfword address is refused (43_arm_loadstore R495). -/
def thumbLoad (w : Width) (signed : Bool) (a : Word) (rd : LowReg) (s : State) : Except Refusal State :=
  refuseIf (decide (w = .half) && oddAddress a) .unalignedHalfword <|
  (s.load w a).bind fun v => .ok (s.setLow rd (extendLoaded signed w v)).advance2

/-- `addr` of formats T7 and T8 (46_thumb_mem_branch R641 to R648). -/
def regOffsetAddress (ro rb : LowReg) (s : State) : Word := s.low rb + s.low ro

/-- `addr` of formats T9 and T10 (46_thumb_mem_branch R649 to R654): the offset scaled by 2^k. -/
def immOffsetAddress (off5 : BitVec 5) (k : Nat) (rb : LowReg) (s : State) : Word := s.low rb + zextShift off5 k

/-- `addr` of format T11 (46_thumb_mem_branch R655, R656). -/
def spOffsetAddress (word8 : BitVec 8) (s : State) : Word := s.thumbReg 13#4 + zextShift word8 2

/-- `addr` of format T6 (46_thumb_mem_branch R640). -/
def pcOffsetAddress (word8 : BitVec 8) (s : State) : Word := s.alignedPc + zextShift word8 2

/-- LDR Rd, [PC, #imm] (46_thumb_mem_branch R640). -/
def execThumbLdrPc (rd : LowReg) (word8 : BitVec 8) (s : State) : Host.Outcome State Fault Refusal :=
  outcome (thumbLoadWord (pcOffsetAddress word8 s) rd s)

/-- STR, register offset (46_thumb_mem_branch R641). -/
def execThumbStrReg (ro rb rd : LowReg) (s : State) : Host.Outcome State Fault Refusal :=
  outcome (thumbStore .word (regOffsetAddress ro rb s) (s.low rd) s)

/-- STRB, register offset (46_thumb_mem_branch R642). -/
def execThumbStrbReg (ro rb rd : LowReg) (s : State) : Host.Outcome State Fault Refusal :=
  outcome (thumbStore .byte (regOffsetAddress ro rb s) (s.low rd) s)

/-- LDR, register offset (46_thumb_mem_branch R643). -/
def execThumbLdrReg (ro rb rd : LowReg) (s : State) : Host.Outcome State Fault Refusal :=
  outcome (thumbLoadWord (regOffsetAddress ro rb s) rd s)

/-- LDRB, register offset (46_thumb_mem_branch R644). -/
def execThumbLdrbReg (ro rb rd : LowReg) (s : State) : Host.Outcome State Fault Refusal :=
  outcome (thumbLoad .byte false (regOffsetAddress ro rb s) rd s)

/-- STRH, register offset (46_thumb_mem_branch R645). -/
def execThumbStrhReg (ro rb rd : LowReg) (s : State) : Host.Outcome State Fault Refusal :=
  outcome (thumbStoreHalf (regOffsetAddress ro rb s) (s.low rd) s)

/-- LDSB (46_thumb_mem_branch R646). -/
def execThumbLdsbReg (ro rb rd : LowReg) (s : State) : Host.Outcome State Fault Refusal :=
  outcome (thumbLoad .byte true (regOffsetAddress ro rb s) rd s)

/-- LDRH, register offset (46_thumb_mem_branch R647). -/
def execThumbLdrhReg (ro rb rd : LowReg) (s : State) : Host.Outcome State Fault Refusal :=
  outcome (thumbLoad .half false (regOffsetAddress ro rb s) rd s)

/-- LDSH (46_thumb_mem_branch R648). -/
def execThumbLdshReg (ro rb rd : LowReg) (s : State) : Host.Outcome State Fault Refusal :=
  outcome (thumbLoad .half true (regOffsetAddress ro rb s) rd s)

/-- STR, immediate offset (46_thumb_mem_branch R649). -/
def execThumbStrImm (off5 : BitVec 5) (rb rd : LowReg) (s : State) : Host.Outcome State Fault Refusal :=
  outcome (thumbStore .word (immOffsetAddress off5 2 rb s) (s.low rd) s)

/-- LDR, immediate offset (46_thumb_mem_branch R650). -/
def execThumbLdrImm (off5 : BitVec 5) (rb rd : LowReg) (s : State) : Host.Outcome State Fault Refusal :=
  outcome (thumbLoadWord (immOffsetAddress off5 2 rb s) rd s)

/-- STRB, immediate offset (46_thumb_mem_branch R651). -/
def execThumbStrbImm (off5 : BitVec 5) (rb rd : LowReg) (s : State) : Host.Outcome State Fault Refusal :=
  outcome (thumbStore .byte (immOffsetAddress off5 0 rb s) (s.low rd) s)

/-- LDRB, immediate offset (46_thumb_mem_branch R652). -/
def execThumbLdrbImm (off5 : BitVec 5) (rb rd : LowReg) (s : State) : Host.Outcome State Fault Refusal :=
  outcome (thumbLoad .byte false (immOffsetAddress off5 0 rb s) rd s)

/-- STRH, immediate offset (46_thumb_mem_branch R653). -/
def execThumbStrhImm (off5 : BitVec 5) (rb rd : LowReg) (s : State) : Host.Outcome State Fault Refusal :=
  outcome (thumbStoreHalf (immOffsetAddress off5 1 rb s) (s.low rd) s)

/-- LDRH, immediate offset (46_thumb_mem_branch R654). -/
def execThumbLdrhImm (off5 : BitVec 5) (rb rd : LowReg) (s : State) : Host.Outcome State Fault Refusal :=
  outcome (thumbLoad .half false (immOffsetAddress off5 1 rb s) rd s)

/-- STR, SP-relative (46_thumb_mem_branch R655). -/
def execThumbStrSp (rd : LowReg) (word8 : BitVec 8) (s : State) : Host.Outcome State Fault Refusal :=
  outcome (thumbStore .word (spOffsetAddress word8 s) (s.low rd) s)

/-- LDR, SP-relative (46_thumb_mem_branch R656). -/
def execThumbLdrSp (rd : LowReg) (word8 : BitVec 8) (s : State) : Host.Outcome State Fault Refusal :=
  outcome (thumbLoadWord (spOffsetAddress word8 s) rd s)

end Sys2Proof.Machine
end

