-- ==== Sys2Proof/Machine/Dispatch.lean ====
section
/-! DEFINITION. Machine/Dispatch.lean: one arm per instruction, each one call of its meaning. -/

namespace Sys2Proof.Machine

def exec (i : Instr) (s : State) : Host.Outcome State Fault Refusal :=
  match i with
  | .armAnd c setFlags rn rd op2 => Sys2Proof.Machine.execArmAnd c setFlags rn rd op2 s
  | .armEor c setFlags rn rd op2 => Sys2Proof.Machine.execArmEor c setFlags rn rd op2 s
  | .armSub c setFlags rn rd op2 => Sys2Proof.Machine.execArmSub c setFlags rn rd op2 s
  | .armRsb c setFlags rn rd op2 => Sys2Proof.Machine.execArmRsb c setFlags rn rd op2 s
  | .armAdd c setFlags rn rd op2 => Sys2Proof.Machine.execArmAdd c setFlags rn rd op2 s
  | .armAdc c setFlags rn rd op2 => Sys2Proof.Machine.execArmAdc c setFlags rn rd op2 s
  | .armSbc c setFlags rn rd op2 => Sys2Proof.Machine.execArmSbc c setFlags rn rd op2 s
  | .armRsc c setFlags rn rd op2 => Sys2Proof.Machine.execArmRsc c setFlags rn rd op2 s
  | .armTst c rn rd op2 => Sys2Proof.Machine.execArmTst c rn rd op2 s
  | .armTeq c rn rd op2 => Sys2Proof.Machine.execArmTeq c rn rd op2 s
  | .armCmp c rn rd op2 => Sys2Proof.Machine.execArmCmp c rn rd op2 s
  | .armCmn c rn rd op2 => Sys2Proof.Machine.execArmCmn c rn rd op2 s
  | .armOrr c setFlags rn rd op2 => Sys2Proof.Machine.execArmOrr c setFlags rn rd op2 s
  | .armMov c setFlags rn rd op2 => Sys2Proof.Machine.execArmMov c setFlags rn rd op2 s
  | .armBic c setFlags rn rd op2 => Sys2Proof.Machine.execArmBic c setFlags rn rd op2 s
  | .armMvn c setFlags rn rd op2 => Sys2Proof.Machine.execArmMvn c setFlags rn rd op2 s
  | .armMrs c spsr sbo rd sbzHigh sbzLow => Sys2Proof.Machine.execArmMrs c spsr sbo rd sbzHigh sbzLow s
  | .armMsrReg c spsr mask sbo sbz rm => Sys2Proof.Machine.execArmMsrReg c spsr mask sbo sbz rm s
  | .armMsrImm c spsr mask sbo rot imm8 => Sys2Proof.Machine.execArmMsrImm c spsr mask sbo rot imm8 s
  | .armMul c setFlags rd sbz rs rm => Sys2Proof.Machine.execArmMul c setFlags rd sbz rs rm s
  | .armMla c setFlags rd rn rs rm => Sys2Proof.Machine.execArmMla c setFlags rd rn rs rm s
  | .armUmull c setFlags rdHi rdLo rs rm => Sys2Proof.Machine.execArmUmull c setFlags rdHi rdLo rs rm s
  | .armUmlal c setFlags rdHi rdLo rs rm => Sys2Proof.Machine.execArmUmlal c setFlags rdHi rdLo rs rm s
  | .armSmull c setFlags rdHi rdLo rs rm => Sys2Proof.Machine.execArmSmull c setFlags rdHi rdLo rs rm s
  | .armSmlal c setFlags rdHi rdLo rs rm => Sys2Proof.Machine.execArmSmlal c setFlags rdHi rdLo rs rm s
  | .armSwp c rn rd sbz rm => Sys2Proof.Machine.execArmSwp c rn rd sbz rm s
  | .armSwpb c rn rd sbz rm => Sys2Proof.Machine.execArmSwpb c rn rd sbz rm s
  | .armStrhReg c p u w rn rd sbz rm => Sys2Proof.Machine.execArmStrhReg c p u w rn rd sbz rm s
  | .armStrhImm c p u w rn rd immH immL => Sys2Proof.Machine.execArmStrhImm c p u w rn rd immH immL s
  | .armLdrhReg c p u w rn rd sbz rm => Sys2Proof.Machine.execArmLdrhReg c p u w rn rd sbz rm s
  | .armLdrhImm c p u w rn rd immH immL => Sys2Proof.Machine.execArmLdrhImm c p u w rn rd immH immL s
  | .armLdrsbReg c p u w rn rd sbz rm => Sys2Proof.Machine.execArmLdrsbReg c p u w rn rd sbz rm s
  | .armLdrsbImm c p u w rn rd immH immL => Sys2Proof.Machine.execArmLdrsbImm c p u w rn rd immH immL s
  | .armLdrshReg c p u w rn rd sbz rm => Sys2Proof.Machine.execArmLdrshReg c p u w rn rd sbz rm s
  | .armLdrshImm c p u w rn rd immH immL => Sys2Proof.Machine.execArmLdrshImm c p u w rn rd immH immL s
  | .armStrhDspace c puiw mid sh0 low => Sys2Proof.Machine.execArmStrhDspace c puiw mid sh0 low s
  | .armStrImmPre c u w rn rd imm12 => Sys2Proof.Machine.execArmStrImmPre c u w rn rd imm12 s
  | .armStrImmPost c u rn rd imm12 => Sys2Proof.Machine.execArmStrImmPost c u rn rd imm12 s
  | .armStrtImm c u rn rd imm12 => Sys2Proof.Machine.execArmStrtImm c u rn rd imm12 s
  | .armStrRegPre c u w rn rd amount kind rm => Sys2Proof.Machine.execArmStrRegPre c u w rn rd amount kind rm s
  | .armStrRegPost c u rn rd amount kind rm => Sys2Proof.Machine.execArmStrRegPost c u rn rd amount kind rm s
  | .armStrtReg c u rn rd amount kind rm => Sys2Proof.Machine.execArmStrtReg c u rn rd amount kind rm s
  | .armLdrImmPre c u w rn rd imm12 => Sys2Proof.Machine.execArmLdrImmPre c u w rn rd imm12 s
  | .armLdrImmPost c u rn rd imm12 => Sys2Proof.Machine.execArmLdrImmPost c u rn rd imm12 s
  | .armLdrtImm c u rn rd imm12 => Sys2Proof.Machine.execArmLdrtImm c u rn rd imm12 s
  | .armLdrRegPre c u w rn rd amount kind rm => Sys2Proof.Machine.execArmLdrRegPre c u w rn rd amount kind rm s
  | .armLdrRegPost c u rn rd amount kind rm => Sys2Proof.Machine.execArmLdrRegPost c u rn rd amount kind rm s
  | .armLdrtReg c u rn rd amount kind rm => Sys2Proof.Machine.execArmLdrtReg c u rn rd amount kind rm s
  | .armStrbImmPre c u w rn rd imm12 => Sys2Proof.Machine.execArmStrbImmPre c u w rn rd imm12 s
  | .armStrbImmPost c u rn rd imm12 => Sys2Proof.Machine.execArmStrbImmPost c u rn rd imm12 s
  | .armStrbtImm c u rn rd imm12 => Sys2Proof.Machine.execArmStrbtImm c u rn rd imm12 s
  | .armStrbRegPre c u w rn rd amount kind rm => Sys2Proof.Machine.execArmStrbRegPre c u w rn rd amount kind rm s
  | .armStrbRegPost c u rn rd amount kind rm => Sys2Proof.Machine.execArmStrbRegPost c u rn rd amount kind rm s
  | .armStrbtReg c u rn rd amount kind rm => Sys2Proof.Machine.execArmStrbtReg c u rn rd amount kind rm s
  | .armLdrbImmPre c u w rn rd imm12 => Sys2Proof.Machine.execArmLdrbImmPre c u w rn rd imm12 s
  | .armLdrbImmPost c u rn rd imm12 => Sys2Proof.Machine.execArmLdrbImmPost c u rn rd imm12 s
  | .armLdrbtImm c u rn rd imm12 => Sys2Proof.Machine.execArmLdrbtImm c u rn rd imm12 s
  | .armLdrbRegPre c u w rn rd amount kind rm => Sys2Proof.Machine.execArmLdrbRegPre c u w rn rd amount kind rm s
  | .armLdrbRegPost c u rn rd amount kind rm => Sys2Proof.Machine.execArmLdrbRegPost c u rn rd amount kind rm s
  | .armLdrbtReg c u rn rd amount kind rm => Sys2Proof.Machine.execArmLdrbtReg c u rn rd amount kind rm s
  | .armStm c p u w rn rlist => Sys2Proof.Machine.execArmStm c p u w rn rlist s
  | .armStmUser c p u w rn rlist => Sys2Proof.Machine.execArmStmUser c p u w rn rlist s
  | .armLdm c p u w rn rlist => Sys2Proof.Machine.execArmLdm c p u w rn rlist s
  | .armLdmUser c p u w rn rlist => Sys2Proof.Machine.execArmLdmUser c p u w rn rlist s
  | .armB c off24 => Sys2Proof.Machine.execArmB c off24 s
  | .armBl c off24 => Sys2Proof.Machine.execArmBl c off24 s
  | .armBx c sbo rm => Sys2Proof.Machine.execArmBx c sbo rm s
  | .armSwi c comment24 => Sys2Proof.Machine.execArmSwi c comment24 s
  | .armUndefA14 c high low => Sys2Proof.Machine.execArmUndefA14 c high low s
  | .armUndefMulspace c high mid low => Sys2Proof.Machine.execArmUndefMulspace c high mid low s
  | .armUndefMisc c imm op rest => Sys2Proof.Machine.execArmUndefMisc c imm op rest s
  | .armLdc c p u n w rn crd cpNum off8 => Sys2Proof.Machine.execArmLdc c p u n w rn crd cpNum off8 s
  | .armStc c p u n w rn crd cpNum off8 => Sys2Proof.Machine.execArmStc c p u n w rn crd cpNum off8 s
  | .armCdp c op1 crn crd cpNum op2 crm => Sys2Proof.Machine.execArmCdp c op1 crn crd cpNum op2 crm s
  | .armMcr c op1 crn rd cpNum op2 crm => Sys2Proof.Machine.execArmMcr c op1 crn rd cpNum op2 crm s
  | .armMrc c op1 crn rd cpNum op2 crm => Sys2Proof.Machine.execArmMrc c op1 crn rd cpNum op2 crm s
  | .thumbLslImm off5 rs rd => Sys2Proof.Machine.execThumbLslImm off5 rs rd s
  | .thumbLsrImm off5 rs rd => Sys2Proof.Machine.execThumbLsrImm off5 rs rd s
  | .thumbAsrImm off5 rs rd => Sys2Proof.Machine.execThumbAsrImm off5 rs rd s
  | .thumbAddReg rn rs rd => Sys2Proof.Machine.execThumbAddReg rn rs rd s
  | .thumbSubReg rn rs rd => Sys2Proof.Machine.execThumbSubReg rn rs rd s
  | .thumbAddImm3 off3 rs rd => Sys2Proof.Machine.execThumbAddImm3 off3 rs rd s
  | .thumbSubImm3 off3 rs rd => Sys2Proof.Machine.execThumbSubImm3 off3 rs rd s
  | .thumbMovImm rd off8 => Sys2Proof.Machine.execThumbMovImm rd off8 s
  | .thumbCmpImm rd off8 => Sys2Proof.Machine.execThumbCmpImm rd off8 s
  | .thumbAddImm8 rd off8 => Sys2Proof.Machine.execThumbAddImm8 rd off8 s
  | .thumbSubImm8 rd off8 => Sys2Proof.Machine.execThumbSubImm8 rd off8 s
  | .thumbAnd rs rd => Sys2Proof.Machine.execThumbAnd rs rd s
  | .thumbEor rs rd => Sys2Proof.Machine.execThumbEor rs rd s
  | .thumbLslReg rs rd => Sys2Proof.Machine.execThumbLslReg rs rd s
  | .thumbLsrReg rs rd => Sys2Proof.Machine.execThumbLsrReg rs rd s
  | .thumbAsrReg rs rd => Sys2Proof.Machine.execThumbAsrReg rs rd s
  | .thumbAdc rs rd => Sys2Proof.Machine.execThumbAdc rs rd s
  | .thumbSbc rs rd => Sys2Proof.Machine.execThumbSbc rs rd s
  | .thumbRorReg rs rd => Sys2Proof.Machine.execThumbRorReg rs rd s
  | .thumbTst rs rd => Sys2Proof.Machine.execThumbTst rs rd s
  | .thumbNeg rs rd => Sys2Proof.Machine.execThumbNeg rs rd s
  | .thumbCmpReg rs rd => Sys2Proof.Machine.execThumbCmpReg rs rd s
  | .thumbCmn rs rd => Sys2Proof.Machine.execThumbCmn rs rd s
  | .thumbOrr rs rd => Sys2Proof.Machine.execThumbOrr rs rd s
  | .thumbMul rs rd => Sys2Proof.Machine.execThumbMul rs rd s
  | .thumbBic rs rd => Sys2Proof.Machine.execThumbBic rs rd s
  | .thumbMvn rs rd => Sys2Proof.Machine.execThumbMvn rs rd s
  | .thumbAddHi r d => Sys2Proof.Machine.execThumbAddHi r d s
  | .thumbCmpHi r d => Sys2Proof.Machine.execThumbCmpHi r d s
  | .thumbMovHi r d => Sys2Proof.Machine.execThumbMovHi r d s
  | .thumbBx h1 r sbz => Sys2Proof.Machine.execThumbBx h1 r sbz s
  | .thumbLdrPc rd word8 => Sys2Proof.Machine.execThumbLdrPc rd word8 s
  | .thumbStrReg ro rb rd => Sys2Proof.Machine.execThumbStrReg ro rb rd s
  | .thumbStrhReg ro rb rd => Sys2Proof.Machine.execThumbStrhReg ro rb rd s
  | .thumbStrbReg ro rb rd => Sys2Proof.Machine.execThumbStrbReg ro rb rd s
  | .thumbLdsbReg ro rb rd => Sys2Proof.Machine.execThumbLdsbReg ro rb rd s
  | .thumbLdrReg ro rb rd => Sys2Proof.Machine.execThumbLdrReg ro rb rd s
  | .thumbLdrhReg ro rb rd => Sys2Proof.Machine.execThumbLdrhReg ro rb rd s
  | .thumbLdrbReg ro rb rd => Sys2Proof.Machine.execThumbLdrbReg ro rb rd s
  | .thumbLdshReg ro rb rd => Sys2Proof.Machine.execThumbLdshReg ro rb rd s
  | .thumbStrImm off5 rb rd => Sys2Proof.Machine.execThumbStrImm off5 rb rd s
  | .thumbLdrImm off5 rb rd => Sys2Proof.Machine.execThumbLdrImm off5 rb rd s
  | .thumbStrbImm off5 rb rd => Sys2Proof.Machine.execThumbStrbImm off5 rb rd s
  | .thumbLdrbImm off5 rb rd => Sys2Proof.Machine.execThumbLdrbImm off5 rb rd s
  | .thumbStrhImm off5 rb rd => Sys2Proof.Machine.execThumbStrhImm off5 rb rd s
  | .thumbLdrhImm off5 rb rd => Sys2Proof.Machine.execThumbLdrhImm off5 rb rd s
  | .thumbStrSp rd word8 => Sys2Proof.Machine.execThumbStrSp rd word8 s
  | .thumbLdrSp rd word8 => Sys2Proof.Machine.execThumbLdrSp rd word8 s
  | .thumbAddPc rd word8 => Sys2Proof.Machine.execThumbAddPc rd word8 s
  | .thumbAddSp rd word8 => Sys2Proof.Machine.execThumbAddSp rd word8 s
  | .thumbAddSpImm sword7 => Sys2Proof.Machine.execThumbAddSpImm sword7 s
  | .thumbSubSpImm sword7 => Sys2Proof.Machine.execThumbSubSpImm sword7 s
  | .thumbPush rlist => Sys2Proof.Machine.execThumbPush rlist s
  | .thumbPushLr rlist => Sys2Proof.Machine.execThumbPushLr rlist s
  | .thumbPop rlist => Sys2Proof.Machine.execThumbPop rlist s
  | .thumbPopPc rlist => Sys2Proof.Machine.execThumbPopPc rlist s
  | .thumbStmia rb rlist => Sys2Proof.Machine.execThumbStmia rb rlist s
  | .thumbLdmia rb rlist => Sys2Proof.Machine.execThumbLdmia rb rlist s
  | .thumbBeq soff8 => Sys2Proof.Machine.execThumbBeq soff8 s
  | .thumbBne soff8 => Sys2Proof.Machine.execThumbBne soff8 s
  | .thumbBcs soff8 => Sys2Proof.Machine.execThumbBcs soff8 s
  | .thumbBcc soff8 => Sys2Proof.Machine.execThumbBcc soff8 s
  | .thumbBmi soff8 => Sys2Proof.Machine.execThumbBmi soff8 s
  | .thumbBpl soff8 => Sys2Proof.Machine.execThumbBpl soff8 s
  | .thumbBvs soff8 => Sys2Proof.Machine.execThumbBvs soff8 s
  | .thumbBvc soff8 => Sys2Proof.Machine.execThumbBvc soff8 s
  | .thumbBhi soff8 => Sys2Proof.Machine.execThumbBhi soff8 s
  | .thumbBls soff8 => Sys2Proof.Machine.execThumbBls soff8 s
  | .thumbBge soff8 => Sys2Proof.Machine.execThumbBge soff8 s
  | .thumbBlt soff8 => Sys2Proof.Machine.execThumbBlt soff8 s
  | .thumbBgt soff8 => Sys2Proof.Machine.execThumbBgt soff8 s
  | .thumbBle soff8 => Sys2Proof.Machine.execThumbBle soff8 s
  | .thumbUndefCond low => Sys2Proof.Machine.execThumbUndefCond low s
  | .thumbSwi value8 => Sys2Proof.Machine.execThumbSwi value8 s
  | .thumbB off11 => Sys2Proof.Machine.execThumbB off11 s
  | .thumbUndefLong low => Sys2Proof.Machine.execThumbUndefLong low s
  | .thumbBlHi off11 => Sys2Proof.Machine.execThumbBlHi off11 s
  | .thumbBlLo off11 => Sys2Proof.Machine.execThumbBlLo off11 s
  | .thumbUndefMisc op low => Sys2Proof.Machine.execThumbUndefMisc op low s

end Sys2Proof.Machine
end

