-- ==== Sys2Proof/Machine/InstrInfo.lean ====
section
/-! DEFINITION. Machine/InstrInfo.lean: the condition of an instruction and the registers it accesses, for the
user-bank hazard (70_reset_and_hazards R942) and the cycle counter (R951). -/

namespace Sys2Proof.Machine

/-- The registers a data-processing operand reads. -/
def operand2Regs (op2 : Operand2) : List RegNum :=
  match op2 with
  | .imm _ _ => []
  | .shiftImm _ _ rm => [rm]
  | .shiftReg rs _ rm => [rs, rm]

/-- The condition an instruction is gated by; Thumb instructions have none (30_encoding R251, R290). -/
def condOf (i : Instr) : Cond :=
  match i with
  | .armAnd c _ _ _ _ => c
  | .armEor c _ _ _ _ => c
  | .armSub c _ _ _ _ => c
  | .armRsb c _ _ _ _ => c
  | .armAdd c _ _ _ _ => c
  | .armAdc c _ _ _ _ => c
  | .armSbc c _ _ _ _ => c
  | .armRsc c _ _ _ _ => c
  | .armTst c _ _ _ => c
  | .armTeq c _ _ _ => c
  | .armCmp c _ _ _ => c
  | .armCmn c _ _ _ => c
  | .armOrr c _ _ _ _ => c
  | .armMov c _ _ _ _ => c
  | .armBic c _ _ _ _ => c
  | .armMvn c _ _ _ _ => c
  | .armMrs c _ _ _ _ _ => c
  | .armMsrReg c _ _ _ _ _ => c
  | .armMsrImm c _ _ _ _ _ => c
  | .armMul c _ _ _ _ _ => c
  | .armMla c _ _ _ _ _ => c
  | .armUmull c _ _ _ _ _ => c
  | .armUmlal c _ _ _ _ _ => c
  | .armSmull c _ _ _ _ _ => c
  | .armSmlal c _ _ _ _ _ => c
  | .armSwp c _ _ _ _ => c
  | .armSwpb c _ _ _ _ => c
  | .armStrhReg c _ _ _ _ _ _ _ => c
  | .armStrhImm c _ _ _ _ _ _ _ => c
  | .armLdrhReg c _ _ _ _ _ _ _ => c
  | .armLdrhImm c _ _ _ _ _ _ _ => c
  | .armLdrsbReg c _ _ _ _ _ _ _ => c
  | .armLdrsbImm c _ _ _ _ _ _ _ => c
  | .armLdrshReg c _ _ _ _ _ _ _ => c
  | .armLdrshImm c _ _ _ _ _ _ _ => c
  | .armStrhDspace c _ _ _ _ => c
  | .armStrImmPre c _ _ _ _ _ => c
  | .armStrImmPost c _ _ _ _ => c
  | .armStrtImm c _ _ _ _ => c
  | .armStrRegPre c _ _ _ _ _ _ _ => c
  | .armStrRegPost c _ _ _ _ _ _ => c
  | .armStrtReg c _ _ _ _ _ _ => c
  | .armLdrImmPre c _ _ _ _ _ => c
  | .armLdrImmPost c _ _ _ _ => c
  | .armLdrtImm c _ _ _ _ => c
  | .armLdrRegPre c _ _ _ _ _ _ _ => c
  | .armLdrRegPost c _ _ _ _ _ _ => c
  | .armLdrtReg c _ _ _ _ _ _ => c
  | .armStrbImmPre c _ _ _ _ _ => c
  | .armStrbImmPost c _ _ _ _ => c
  | .armStrbtImm c _ _ _ _ => c
  | .armStrbRegPre c _ _ _ _ _ _ _ => c
  | .armStrbRegPost c _ _ _ _ _ _ => c
  | .armStrbtReg c _ _ _ _ _ _ => c
  | .armLdrbImmPre c _ _ _ _ _ => c
  | .armLdrbImmPost c _ _ _ _ => c
  | .armLdrbtImm c _ _ _ _ => c
  | .armLdrbRegPre c _ _ _ _ _ _ _ => c
  | .armLdrbRegPost c _ _ _ _ _ _ => c
  | .armLdrbtReg c _ _ _ _ _ _ => c
  | .armStm c _ _ _ _ _ => c
  | .armStmUser c _ _ _ _ _ => c
  | .armLdm c _ _ _ _ _ => c
  | .armLdmUser c _ _ _ _ _ => c
  | .armB c _ => c
  | .armBl c _ => c
  | .armBx c _ _ => c
  | .armSwi c _ => c
  | .armUndefA14 c _ _ => c
  | .armUndefMulspace c _ _ _ => c
  | .armUndefMisc c _ _ _ => c
  | .armLdc c _ _ _ _ _ _ _ _ => c
  | .armStc c _ _ _ _ _ _ _ _ => c
  | .armCdp c _ _ _ _ _ _ => c
  | .armMcr c _ _ _ _ _ _ => c
  | .armMrc c _ _ _ _ _ _ => c
  | .thumbLslImm _ _ _ => .al
  | .thumbLsrImm _ _ _ => .al
  | .thumbAsrImm _ _ _ => .al
  | .thumbAddReg _ _ _ => .al
  | .thumbSubReg _ _ _ => .al
  | .thumbAddImm3 _ _ _ => .al
  | .thumbSubImm3 _ _ _ => .al
  | .thumbMovImm _ _ => .al
  | .thumbCmpImm _ _ => .al
  | .thumbAddImm8 _ _ => .al
  | .thumbSubImm8 _ _ => .al
  | .thumbAnd _ _ => .al
  | .thumbEor _ _ => .al
  | .thumbLslReg _ _ => .al
  | .thumbLsrReg _ _ => .al
  | .thumbAsrReg _ _ => .al
  | .thumbAdc _ _ => .al
  | .thumbSbc _ _ => .al
  | .thumbRorReg _ _ => .al
  | .thumbTst _ _ => .al
  | .thumbNeg _ _ => .al
  | .thumbCmpReg _ _ => .al
  | .thumbCmn _ _ => .al
  | .thumbOrr _ _ => .al
  | .thumbMul _ _ => .al
  | .thumbBic _ _ => .al
  | .thumbMvn _ _ => .al
  | .thumbAddHi _ _ => .al
  | .thumbCmpHi _ _ => .al
  | .thumbMovHi _ _ => .al
  | .thumbBx _ _ _ => .al
  | .thumbLdrPc _ _ => .al
  | .thumbStrReg _ _ _ => .al
  | .thumbStrhReg _ _ _ => .al
  | .thumbStrbReg _ _ _ => .al
  | .thumbLdsbReg _ _ _ => .al
  | .thumbLdrReg _ _ _ => .al
  | .thumbLdrhReg _ _ _ => .al
  | .thumbLdrbReg _ _ _ => .al
  | .thumbLdshReg _ _ _ => .al
  | .thumbStrImm _ _ _ => .al
  | .thumbLdrImm _ _ _ => .al
  | .thumbStrbImm _ _ _ => .al
  | .thumbLdrbImm _ _ _ => .al
  | .thumbStrhImm _ _ _ => .al
  | .thumbLdrhImm _ _ _ => .al
  | .thumbStrSp _ _ => .al
  | .thumbLdrSp _ _ => .al
  | .thumbAddPc _ _ => .al
  | .thumbAddSp _ _ => .al
  | .thumbAddSpImm _ => .al
  | .thumbSubSpImm _ => .al
  | .thumbPush _ => .al
  | .thumbPushLr _ => .al
  | .thumbPop _ => .al
  | .thumbPopPc _ => .al
  | .thumbStmia _ _ => .al
  | .thumbLdmia _ _ => .al
  | .thumbBeq _ => .al
  | .thumbBne _ => .al
  | .thumbBcs _ => .al
  | .thumbBcc _ => .al
  | .thumbBmi _ => .al
  | .thumbBpl _ => .al
  | .thumbBvs _ => .al
  | .thumbBvc _ => .al
  | .thumbBhi _ => .al
  | .thumbBls _ => .al
  | .thumbBge _ => .al
  | .thumbBlt _ => .al
  | .thumbBgt _ => .al
  | .thumbBle _ => .al
  | .thumbUndefCond _ => .al
  | .thumbSwi _ => .al
  | .thumbB _ => .al
  | .thumbUndefLong _ => .al
  | .thumbBlHi _ => .al
  | .thumbBlLo _ => .al
  | .thumbUndefMisc _ _ => .al

/-- The numbers of the registers of the current mode an instruction reads or writes, explicitly or implicitly as SP or
LR; the User registers of a user-bank transfer are not among them (70_reset_and_hazards R942; log 15). -/
def accessedRegs (i : Instr) : List RegNum :=
  match i with
  | .armAnd _ _ rn rd op2 => rn :: rd :: operand2Regs op2
  | .armEor _ _ rn rd op2 => rn :: rd :: operand2Regs op2
  | .armSub _ _ rn rd op2 => rn :: rd :: operand2Regs op2
  | .armRsb _ _ rn rd op2 => rn :: rd :: operand2Regs op2
  | .armAdd _ _ rn rd op2 => rn :: rd :: operand2Regs op2
  | .armAdc _ _ rn rd op2 => rn :: rd :: operand2Regs op2
  | .armSbc _ _ rn rd op2 => rn :: rd :: operand2Regs op2
  | .armRsc _ _ rn rd op2 => rn :: rd :: operand2Regs op2
  | .armTst _ rn _ op2 => rn :: operand2Regs op2
  | .armTeq _ rn _ op2 => rn :: operand2Regs op2
  | .armCmp _ rn _ op2 => rn :: operand2Regs op2
  | .armCmn _ rn _ op2 => rn :: operand2Regs op2
  | .armOrr _ _ rn rd op2 => rn :: rd :: operand2Regs op2
  | .armMov _ _ _ rd op2 => rd :: operand2Regs op2
  | .armBic _ _ rn rd op2 => rn :: rd :: operand2Regs op2
  | .armMvn _ _ _ rd op2 => rd :: operand2Regs op2
  | .armMrs _ _ _ rd _ _ => [rd]
  | .armMsrReg _ _ _ _ _ rm => [rm]
  | .armMsrImm _ _ _ _ _ _ => []
  | .armMul _ _ rd _ rs rm => [rd, rs, rm]
  | .armMla _ _ rd rn rs rm => [rd, rn, rs, rm]
  | .armUmull _ _ rdHi rdLo rs rm => [rdHi, rdLo, rs, rm]
  | .armUmlal _ _ rdHi rdLo rs rm => [rdHi, rdLo, rs, rm]
  | .armSmull _ _ rdHi rdLo rs rm => [rdHi, rdLo, rs, rm]
  | .armSmlal _ _ rdHi rdLo rs rm => [rdHi, rdLo, rs, rm]
  | .armSwp _ rn rd _ rm => [rn, rd, rm]
  | .armSwpb _ rn rd _ rm => [rn, rd, rm]
  | .armStrhReg _ _ _ _ rn rd _ rm => [rn, rd, rm]
  | .armStrhImm _ _ _ _ rn rd _ _ => [rn, rd]
  | .armLdrhReg _ _ _ _ rn rd _ rm => [rn, rd, rm]
  | .armLdrhImm _ _ _ _ rn rd _ _ => [rn, rd]
  | .armLdrsbReg _ _ _ _ rn rd _ rm => [rn, rd, rm]
  | .armLdrsbImm _ _ _ _ rn rd _ _ => [rn, rd]
  | .armLdrshReg _ _ _ _ rn rd _ rm => [rn, rd, rm]
  | .armLdrshImm _ _ _ _ rn rd _ _ => [rn, rd]
  | .armStrhDspace _ _ _ _ _ => []
  | .armStrImmPre _ _ _ rn rd _ => [rn, rd]
  | .armStrImmPost _ _ rn rd _ => [rn, rd]
  | .armStrtImm _ _ rn rd _ => [rn, rd]
  | .armStrRegPre _ _ _ rn rd _ _ rm => [rn, rd, rm]
  | .armStrRegPost _ _ rn rd _ _ rm => [rn, rd, rm]
  | .armStrtReg _ _ rn rd _ _ rm => [rn, rd, rm]
  | .armLdrImmPre _ _ _ rn rd _ => [rn, rd]
  | .armLdrImmPost _ _ rn rd _ => [rn, rd]
  | .armLdrtImm _ _ rn rd _ => [rn, rd]
  | .armLdrRegPre _ _ _ rn rd _ _ rm => [rn, rd, rm]
  | .armLdrRegPost _ _ rn rd _ _ rm => [rn, rd, rm]
  | .armLdrtReg _ _ rn rd _ _ rm => [rn, rd, rm]
  | .armStrbImmPre _ _ _ rn rd _ => [rn, rd]
  | .armStrbImmPost _ _ rn rd _ => [rn, rd]
  | .armStrbtImm _ _ rn rd _ => [rn, rd]
  | .armStrbRegPre _ _ _ rn rd _ _ rm => [rn, rd, rm]
  | .armStrbRegPost _ _ rn rd _ _ rm => [rn, rd, rm]
  | .armStrbtReg _ _ rn rd _ _ rm => [rn, rd, rm]
  | .armLdrbImmPre _ _ _ rn rd _ => [rn, rd]
  | .armLdrbImmPost _ _ rn rd _ => [rn, rd]
  | .armLdrbtImm _ _ rn rd _ => [rn, rd]
  | .armLdrbRegPre _ _ _ rn rd _ _ rm => [rn, rd, rm]
  | .armLdrbRegPost _ _ rn rd _ _ rm => [rn, rd, rm]
  | .armLdrbtReg _ _ rn rd _ _ rm => [rn, rd, rm]
  | .armStm _ _ _ _ rn rlist => rn :: listedRegs rlist
  | .armStmUser _ _ _ _ rn _ => [rn]
  | .armLdm _ _ _ _ rn rlist => rn :: listedRegs rlist
  | .armLdmUser _ _ _ _ rn rlist => rn :: (if inList rlist 15#4 then listedRegs rlist else [])
  | .armB _ _ => []
  | .armBl _ _ => [14#4]
  | .armBx _ _ rm => [rm]
  | .armSwi _ _ => []
  | .armUndefA14 _ _ _ => []
  | .armUndefMulspace _ _ _ _ => []
  | .armUndefMisc _ _ _ _ => []
  | .armLdc _ _ _ _ _ _ _ _ _ => []
  | .armStc _ _ _ _ _ _ _ _ _ => []
  | .armCdp _ _ _ _ _ _ _ => []
  | .armMcr _ _ _ _ _ _ _ => []
  | .armMrc _ _ _ _ _ _ _ => []
  | .thumbLslImm _ rs rd => [lowReg rs, lowReg rd]
  | .thumbLsrImm _ rs rd => [lowReg rs, lowReg rd]
  | .thumbAsrImm _ rs rd => [lowReg rs, lowReg rd]
  | .thumbAddReg rn rs rd => [lowReg rn, lowReg rs, lowReg rd]
  | .thumbSubReg rn rs rd => [lowReg rn, lowReg rs, lowReg rd]
  | .thumbAddImm3 _ rs rd => [lowReg rs, lowReg rd]
  | .thumbSubImm3 _ rs rd => [lowReg rs, lowReg rd]
  | .thumbMovImm rd _ => [lowReg rd]
  | .thumbCmpImm rd _ => [lowReg rd]
  | .thumbAddImm8 rd _ => [lowReg rd]
  | .thumbSubImm8 rd _ => [lowReg rd]
  | .thumbAnd rs rd => [lowReg rs, lowReg rd]
  | .thumbEor rs rd => [lowReg rs, lowReg rd]
  | .thumbLslReg rs rd => [lowReg rs, lowReg rd]
  | .thumbLsrReg rs rd => [lowReg rs, lowReg rd]
  | .thumbAsrReg rs rd => [lowReg rs, lowReg rd]
  | .thumbAdc rs rd => [lowReg rs, lowReg rd]
  | .thumbSbc rs rd => [lowReg rs, lowReg rd]
  | .thumbRorReg rs rd => [lowReg rs, lowReg rd]
  | .thumbTst rs rd => [lowReg rs, lowReg rd]
  | .thumbNeg rs rd => [lowReg rs, lowReg rd]
  | .thumbCmpReg rs rd => [lowReg rs, lowReg rd]
  | .thumbCmn rs rd => [lowReg rs, lowReg rd]
  | .thumbOrr rs rd => [lowReg rs, lowReg rd]
  | .thumbMul rs rd => [lowReg rs, lowReg rd]
  | .thumbBic rs rd => [lowReg rs, lowReg rd]
  | .thumbMvn rs rd => [lowReg rs, lowReg rd]
  | .thumbAddHi r d => [r, d]
  | .thumbCmpHi r d => [r, d]
  | .thumbMovHi r d => [r, d]
  | .thumbBx _ r _ => [r]
  | .thumbLdrPc rd _ => [lowReg rd]
  | .thumbStrReg ro rb rd => [lowReg ro, lowReg rb, lowReg rd]
  | .thumbStrhReg ro rb rd => [lowReg ro, lowReg rb, lowReg rd]
  | .thumbStrbReg ro rb rd => [lowReg ro, lowReg rb, lowReg rd]
  | .thumbLdsbReg ro rb rd => [lowReg ro, lowReg rb, lowReg rd]
  | .thumbLdrReg ro rb rd => [lowReg ro, lowReg rb, lowReg rd]
  | .thumbLdrhReg ro rb rd => [lowReg ro, lowReg rb, lowReg rd]
  | .thumbLdrbReg ro rb rd => [lowReg ro, lowReg rb, lowReg rd]
  | .thumbLdshReg ro rb rd => [lowReg ro, lowReg rb, lowReg rd]
  | .thumbStrImm _ rb rd => [lowReg rb, lowReg rd]
  | .thumbLdrImm _ rb rd => [lowReg rb, lowReg rd]
  | .thumbStrbImm _ rb rd => [lowReg rb, lowReg rd]
  | .thumbLdrbImm _ rb rd => [lowReg rb, lowReg rd]
  | .thumbStrhImm _ rb rd => [lowReg rb, lowReg rd]
  | .thumbLdrhImm _ rb rd => [lowReg rb, lowReg rd]
  | .thumbStrSp rd _ => [lowReg rd, 13#4]
  | .thumbLdrSp rd _ => [lowReg rd, 13#4]
  | .thumbAddPc rd _ => [lowReg rd]
  | .thumbAddSp rd _ => [lowReg rd, 13#4]
  | .thumbAddSpImm _ => [13#4]
  | .thumbSubSpImm _ => [13#4]
  | .thumbPush rlist => 13#4 :: listedRegs (lowList rlist)
  | .thumbPushLr rlist => 13#4 :: 14#4 :: listedRegs (lowList rlist)
  | .thumbPop rlist => 13#4 :: listedRegs (lowList rlist)
  | .thumbPopPc rlist => 13#4 :: listedRegs (lowList rlist)
  | .thumbStmia rb rlist => lowReg rb :: listedRegs (lowList rlist)
  | .thumbLdmia rb rlist => lowReg rb :: listedRegs (lowList rlist)
  | .thumbBeq _ => []
  | .thumbBne _ => []
  | .thumbBcs _ => []
  | .thumbBcc _ => []
  | .thumbBmi _ => []
  | .thumbBpl _ => []
  | .thumbBvs _ => []
  | .thumbBvc _ => []
  | .thumbBhi _ => []
  | .thumbBls _ => []
  | .thumbBge _ => []
  | .thumbBlt _ => []
  | .thumbBgt _ => []
  | .thumbBle _ => []
  | .thumbUndefCond _ => []
  | .thumbSwi _ => []
  | .thumbB _ => []
  | .thumbUndefLong _ => []
  | .thumbBlHi _ => [14#4]
  | .thumbBlLo _ => [14#4]
  | .thumbUndefMisc _ _ => []

/-- The banked registers of a mode: r8..r14 in FIQ mode, r13 and r14 in the other privileged modes
(70_reset_and_hazards R942). -/
def bankedIn (m : Mode) (i : RegNum) : Bool :=
  match m with
  | .user => false
  | .fiq => decide (8#4 ≤ i) && decide (i ≤ 14#4)
  | .irq => decide (i = 13#4) || decide (i = 14#4)
  | .svc => decide (i = 13#4) || decide (i = 14#4)
  | .abt => decide (i = 13#4) || decide (i = 14#4)
  | .und => decide (i = 13#4) || decide (i = 14#4)
  | .sys => decide (i = 13#4) || decide (i = 14#4)

/-- Whether an instruction accesses a banked register of the current mode (70_reset_and_hazards R942). An instruction
whose condition fails accesses none (log 15). -/
def accessesBanked (i : Instr) (p : Cpsr) : Bool :=
  condPassed (condOf i) p && (accessedRegs i).any (bankedIn p.mode)

end Sys2Proof.Machine
end

