-- ==== Sys2Proof/Machine/Cpu.lean ====
section
/-! DEFINITION. Machine/Cpu.lean: the CPU step: IRQ check, fetch, decode, execute (60_exceptions R870; 10_state R67;
20_memory R157, R158; 70_reset_and_hazards R942, R951). -/

namespace Sys2Proof.Machine

/-- Fetch32(PC) (20_memory R157). -/
def State.fetchWord (s : State) : Word := s.readWord (alignAddr .word s.pc)

/-- Fetch16(PC) (20_memory R157). -/
def State.fetchHalf (s : State) : Half := s.readHalf (alignAddr .half s.pc)

/-- The instruction at the PC, by the decoder CPSR.T selects (10_state R67). -/
def State.fetchInstr (s : State) : Instr :=
  if s.cpsr.t then decodeThumb s.fetchHalf else decodeArm s.fetchWord

/-- The cycles of one instruction: its fetch, and its execution or its being skipped (70_reset_and_hazards R951).
Log 7. -/
def instrCycles (i : Instr) (s : State) : Nat :=
  Config.cycleCost .fetch s.draws +
    Config.cycleCost (if condPassed (condOf i) s.cpsr then .executed else .skipped) s.draws

/-- What a step does around an instruction before it runs: the cycles, the end of the user-bank hazard
(70_reset_and_hazards R942) and the next draw. -/
def State.beginInstr (s : State) (i : Instr) : State :=
  { s with cycles := s.cycles + instrCycles i s, userBankHazard := false, draws := s.draws + 1 }

/-- The IRQ entry of a step, with its cycles. -/
def State.irqStep (s : State) : State :=
  { s.takeIrq with cycles := s.cycles + Config.cycleCost .exceptionEntry s.draws }

/-- An instruction at a boundary: refused when it accesses a banked register under the user-bank hazard
(70_reset_and_hazards R942), else executed. -/
def runInstr (i : Instr) (s : State) : Host.Outcome State Fault Refusal :=
  if s.userBankHazard && accessesBanked i s.cpsr then .refused .bankedAccessAfterUserLdm
  else exec i (s.beginInstr i)

/-- One CPU step (60_exceptions R870): the IRQ entry when it is pending, else the instruction at the PC, fetched from
an executable region (20_memory R158). -/
def cpuStep (s : State) : Host.Outcome State Fault Refusal :=
  if s.tick.irqPending then .next s.tick.irqStep
  else if executable s.pc then runInstr s.tick.fetchInstr s.tick
  else .fault .fetchFromUnexecutableRegion

/-! ### Placing an instruction where the next step fetches it -/

/-- The address the next fetch uses once an instruction of a state is placed: the PC aligned for that state, or the
start of EWRAM when no fetch is admitted there. -/
def placeAddress (thumb : Bool) (pc : Word) : Word :=
  if executable pc then (if thumb then pc &&& 0xFFFFFFFE#32 else pc &&& 0xFFFFFFFC#32) else 0x02000000#32

/-- Bytes listed from an address on. -/
def placeBytes (m : List Host.Cell) (a : Word) : List Byte → List Host.Cell
  | [] => m
  | b :: rest => placeBytes (Memory.set m (keyOf a) b) (a + 1#32) rest

/-- The bytes of an instruction of `nbits` bits, lowest address first. -/
def codeBytes (nbits w : Nat) : List Byte :=
  if nbits ≤ 16 then bytesOfHalf (BitVec.ofNat 16 w) else bytesOfWord (BitVec.ofNat 32 w)

/-- The state with an instruction placed where the next step fetches, in the processor state of its length; the
environment has no turn before it, no IRQ is taken and no hazard is pending. Log 5. -/
def State.placeInstruction (s : State) (nbits w : Nat) : State :=
  { s with
    mem := placeBytes s.mem (placeAddress (decide (nbits ≤ 16)) s.pc) (codeBytes nbits w)
    pc := placeAddress (decide (nbits ≤ 16)) s.pc
    cpsr := { s.cpsr with t := decide (nbits ≤ 16), i := s.cpsr.i || s.irqPending }
    userBankHazard := false
    schedule := [] }

end Sys2Proof.Machine
end

