-- ==== Sys2Proof/Machine/Step.lean ====
section
/-! DEFINITION. Machine/Step.lean: one step of the machine (00_scope R6): the agent whose turn it is moves. -/

namespace Sys2Proof.Machine

/-- One step: the first turn of the schedule, or the CPU's when none is listed, in the order of the scanline
(70_reset_and_hazards R950). Log 8. -/
def step (s : State) : Host.Outcome State Fault Refusal :=
  match s.schedule with
  | [] => cpuStep s.beginBudget
  | .cpu :: rest => cpuStep (State.beginBudget { s with schedule := rest })
  | .render y :: rest => State.renderTurn { s with schedule := rest } y
  | .env a :: rest => envStep a (State.markActed { s with schedule := rest })
  | .endLine :: rest => State.endLineTurn { s with schedule := rest }

/-- The state with an instruction where the next step fetches it (Log 5). -/
def State.withFetchWord (s : State) (nbits w : Nat) : State := s.placeInstruction nbits w

end Sys2Proof.Machine
end

