-- ==== Sys2Proof/Safety.lean ====
section
/-! DEFINITION. Safety.lean: what counts as a safe run, the invariant of the machine, and the words the statements are
made of: what a step keeps and what it changes. -/

namespace Sys2Proof.Machine

/-! ### Safe runs -/

/-- The next step neither faults nor is refused. -/
def State.canStep (s : State) : Prop := ∃ t, step s = .next t

/-- The next `k` steps neither fault nor are refused. -/
def State.safeFor : Nat → State → Prop
  | 0, _ => True
  | k + 1, s => ∃ t, step s = .next t ∧ State.safeFor k t

/-! ### The invariant -/

/-- PC is aligned for the processor state: a word in ARM state, a halfword in Thumb state (10_state R60). -/
def State.pcAligned (s : State) : Prop := if s.cpsr.t then s.pc.getLsbD 0 = false else s.pc.extractLsb' 0 2 = 0#2

/-- The bits 27..8 of a status word, which read 0 (10_state R57). -/
def reservedStatusBits (v : Word) : BitVec 20 := v.extractLsb' 8 20

/-- The bits of a granule that some agent can set: software by its write mask, the environment by its read mask
(20_memory R186). -/
def IoReg.storable (r : IoReg) : Half := r.readMask ||| r.writeMask

/-- What every step keeps. -/
structure State.Inv (s : State) : Prop where
  /-- Memory is in canonical form. -/
  memory : Memory.wf s.mem = true
  /-- PC is aligned (10_state R60). -/
  pc : s.pcAligned
  /-- Reserved bits of every SPSR are 0 (10_state R57, 41_arm_dataproc R417). -/
  spsrs : ∀ m v, s.spsrs.get? m = some v → reservedStatusBits v = 0#20
  /-- No granule holds a bit its row does not have (20_memory R186). -/
  io : ∀ r : IoReg, s.ioRaw r &&& ~~~r.storable = 0#16
  /-- VCOUNT names a line (20_memory R188). -/
  vcount : (s.ioRaw .vcount).toNat < 228
  /-- Bits 7..5 of the sprite metadata are 0 (10_state R70). -/
  objMeta : ∀ x : Fin 240, s.objMeta[x].extractLsb' 5 3 = 0#3
  /-- Only a visible line is rendered (70_reset_and_hazards R950). -/
  rendered : s.phase = .effects → s.line.val < 160

/-! ### Frames -/

/-- Every byte of the address space reads as before. -/
def KeepsMemory (s t : State) : Prop := ∀ a : Word, t.readByte a = s.readByte a

/-- The stored registers other than those the numbers of `written` name in the mode of `s` are as before. -/
def KeepsRegistersBut (written : List RegNum) (s t : State) : Prop :=
  ∀ p : PhysReg, (∀ i ∈ written, physReg s.cpsr.mode i ≠ some p) → t.reg p = s.reg p

/-- Everything but the general registers, CPSR, PC and what a store may change is as before: a store may change the
memory list, the I/O granules, the internal reference registers and the environment's events (20_memory R174, R196). -/
structure KeepsAllButStore (s t : State) : Prop where
  spsrs : t.spsrs = s.spsrs
  cycles : t.cycles = s.cycles
  userBankHazard : t.userBankHazard = s.userBankHazard
  bgLine : t.bgLine = s.bgLine
  bgPresent : t.bgPresent = s.bgPresent
  objLine : t.objLine = s.objLine
  objMeta : t.objMeta = s.objMeta
  frame : t.frame = s.frame
  line : t.line = s.line
  phase : t.phase = s.phase
  schedule : t.schedule = s.schedule
  draws : t.draws = s.draws
  powerOns : t.powerOns = s.powerOns

/-- Everything but the general registers, CPSR and PC is as before. -/
structure KeepsAllButCpu (s t : State) : Prop extends KeepsAllButStore s t where
  mem : t.mem = s.mem
  io : t.io = s.io
  bg2xInt : t.bg2xInt = s.bg2xInt
  bg2yInt : t.bg2yInt = s.bg2yInt
  bg3xInt : t.bg3xInt = s.bg3xInt
  bg3yInt : t.bg3yInt = s.bg3yInt
  envEvents : t.envEvents = s.envEvents

/-- The frame of an instruction that stores nothing: registers other than the written ones, and everything outside
the general registers, CPSR and PC, every byte of memory included. -/
structure RegisterFrame (written : List RegNum) (s t : State) : Prop where
  registers : KeepsRegistersBut written s t
  rest : KeepsAllButCpu s t
  memory : KeepsMemory s t

/-- The addresses of the bytes of a width, from an address on. -/
def byteSpan (w : Width) (a : Word) : List Word :=
  match w with
  | .byte => [a]
  | .half => [a, a + 1#32]
  | .word => [a, a + 1#32, a + 2#32, a + 3#32]

/-- The addresses a store of a width at an address writes: the aligned bytes; a byte store to palette RAM or VRAM
writes the halfword that holds it (20_memory R153, R155). -/
def storedAddresses (w : Width) (addr : Word) : List Word :=
  match w, regionOf addr with
  | .byte, .palette => byteSpan .half (alignAddr .half addr)
  | .byte, .vram => byteSpan .half (alignAddr .half addr)
  | _, _ => byteSpan w (alignAddr w addr)

/-- Every byte reads as before, except the bytes of the stored addresses, under whichever mirror they are read. -/
def KeepsMemoryBut (addrs : List Word) (s t : State) : Prop :=
  ∀ a : Word, (∀ b ∈ addrs, keyOf a ≠ keyOf b) → t.readByte a = s.readByte a

/-- The frame of an instruction that stores to some addresses. -/
structure StoreFrame (written : List RegNum) (addrs : List Word) (s t : State) : Prop where
  registers : KeepsRegistersBut written s t
  rest : KeepsAllButStore s t
  memory : KeepsMemoryBut addrs s t

/-! ### Data accesses -/

/-- The low bytes of a value that a width stores, zero-extended. -/
def lowBytes (w : Width) (v : Word) : Word :=
  match w with
  | .byte => (v.extractLsb' 0 8).setWidth 32
  | .half => (v.extractLsb' 0 16).setWidth 32
  | .word => v

/-- What a store of `v` at `a` leaves in storage, by region (20_memory R154 to R168): work RAM, palette RAM, VRAM, OAM
and SRAM read the value back; a byte stored to palette RAM or VRAM reads back in both bytes of its halfword; a byte
stored to OAM, and every store to BIOS, ROM or an unmapped address, changes no byte. The I/O page is said elsewhere. -/
def StoredValue (w : Width) (a v : Word) (s t : State) : Prop :=
  match regionOf a, w with
  | .ewram, _ => t.memRead w a = lowBytes w v
  | .iwram, _ => t.memRead w a = lowBytes w v
  | .palette, .byte => t.memRead .half a = (v.extractLsb' 0 8 ++ v.extractLsb' 0 8 : Half).setWidth 32
  | .palette, _ => t.memRead w a = lowBytes w v
  | .vram, .byte => t.memRead .half a = (v.extractLsb' 0 8 ++ v.extractLsb' 0 8 : Half).setWidth 32
  | .vram, _ => t.memRead w a = lowBytes w v
  | .oam, .byte => KeepsMemory s t
  | .oam, _ => t.memRead w a = lowBytes w v
  | .sram, _ => t.memRead w a = lowBytes w v
  | .bios, _ => KeepsMemory s t
  | .rom, _ => KeepsMemory s t
  | .unmapped, _ => KeepsMemory s t
  | .io, _ => True

/-- The I/O granules, the internal reference registers and the environment's events are as in `u`. -/
structure SameIo (u t : State) : Prop where
  io : t.io = u.io
  bg2xInt : t.bg2xInt = u.bg2xInt
  bg2yInt : t.bg2yInt = u.bg2yInt
  bg3xInt : t.bg3xInt = u.bg3xInt
  bg3yInt : t.bg3yInt = u.bg3yInt
  envEvents : t.envEvents = u.envEvents

/-- What a store of `v` at `a` does to the bytes and to the I/O page: the stored value reads back as its region says;
a store outside the I/O page leaves the page alone, one inside it is the bus write of 20_memory R185. -/
structure StoreEffect (w : Width) (a v : Word) (s t : State) : Prop where
  value : StoredValue w a v s t
  page : SameIo (s.memWrite w a v) t
  outside : regionOf a ≠ .io → SameIo s t

/-- What stores of several words leave: each word reads back at its own address in work RAM, palette RAM, VRAM and
OAM, and the I/O page is as the bus writes in that order leave it. -/
structure WordsEffect (l : List (Word × Word)) (s t : State) : Prop where
  value : ∀ x ∈ l, match regionOf x.1 with
    | .ewram | .iwram | .palette | .vram | .oam => t.memRead .word x.1 = x.2
    | .bios | .rom | .unmapped => t.memRead .word x.1 = s.memRead .word x.1
    | .io | .sram => True
  page : SameIo (l.foldl (fun u x => u.memWrite .word x.1 x.2) s) t
  outside : (∀ x ∈ l, regionOf x.1 ≠ .io) → SameIo s t

/-- A data access is no 16-bit or 32-bit access to cartridge SRAM (20_memory R168). -/
def loadAdmitted (w : Width) (a : Word) : Prop := sramWide w a = false

/-- A store is no wide access to SRAM and changes no byte of the two instruction slots after the executing one
(20_memory R168, 70_reset_and_hazards R941). -/
def storeAdmitted (s : State) (w : Width) (a v : Word) : Prop :=
  sramWide w a = false ∧ hitsWindow s.cpsr.t (s.pc + s.instrLength) w a v = false

end Sys2Proof.Machine
end

