-- ==== Sys2Proof/Certificates/Slice0/Obligations.lean ====
section
/-! DEFINITION. Certificates/Slice0/Obligations.lean: the statements for the provers. -/

namespace Sys2Proof.Statements

open Sys2Proof.Machine

/-! ### ARM data processing (41_arm_dataproc) -/

/-- The shape of the instructions with an S bit, Rn, Rd and operand 2. -/
abbrev DpForm := Cond → Bool → RegNum → RegNum → Operand2 → Instr

/-- The shape of the instructions with Rn, Rd and operand 2 that only set flags. -/
abbrev TestForm := Cond → RegNum → RegNum → Operand2 → Instr

/-- The first operand, R[Rn] (10_state R62, 40_shifter_alu R358). -/
def firstOperand (rn : RegNum) (op2 : Operand2) (s : State) : Word := s.readReg (operandR15 op2 s) rn

/-- The flags of a logical operation (40_shifter_alu R372): N and Z from the result, C from the shifter, V kept. -/
def logicalFlags (p : Cpsr) (r : Word) (sc : Bool) : Cpsr := { p with n := r.msb, z := decide (r = 0#32), c := sc }

/-- The flags of an arithmetic operation (40_shifter_alu R373): C as given, V set when the exact signed value is not
the signed value of the result. -/
def arithmeticFlags (p : Cpsr) (r : Word) (carry : Bool) (exact : Int) : Cpsr :=
  { p with n := r.msb, z := decide (r = 0#32), c := carry, v := decide (r.toInt ≠ exact) }

/-- What a logical operation with a destination other than r15 does. `usesRn` is false when Rn must be 0. -/
def LogicalResult (mk : DpForm) (usesRn : Bool) (f : Word → Word → Word) : Prop :=
  ∀ (c : Cond) (setFlags : Bool) (rn rd : RegNum) (op2 : Operand2) (s : State),
    condPassed c s.cpsr = true → rd ≠ 15#4 → (usesRn = false → rn = 0#4) →
    ∃ t, exec (mk c setFlags rn rd op2) s = .next t ∧
      t.armReg rd = f (firstOperand rn op2 s) (shifterOperand op2 s).1 ∧
      t.cpsr = (if setFlags then
        logicalFlags s.cpsr (f (firstOperand rn op2 s) (shifterOperand op2 s).1) (shifterOperand op2 s).2 else s.cpsr) ∧
      t.pc = s.pc + 4#32 ∧ RegisterFrame [rd] s t

/-- The meaning of an arithmetic operation on two words and the carry in: the result, the carry out, and the exact
signed value. -/
structure ArithmeticMeaning where
  result : Word → Word → Bool → Word
  carry : Word → Word → Bool → Bool
  exact : Word → Word → Bool → Int

/-- Addition with a carry in. -/
def additionMeaning (cin : Bool → Bool) : ArithmeticMeaning where
  result a b c := a + b + BitVec.ofNat 32 (cin c).toNat
  carry a b c := decide (2 ^ 32 ≤ a.toNat + b.toNat + (cin c).toNat)
  exact a b c := a.toInt + b.toInt + ((cin c).toNat : Int)

/-- Subtraction of the second operand and a borrow; the carry out is set when there is no borrow. -/
def subtractionMeaning (borrow : Bool → Bool) : ArithmeticMeaning where
  result a b c := a - b - BitVec.ofNat 32 (borrow c).toNat
  carry a b c := decide (b.toNat + (borrow c).toNat ≤ a.toNat)
  exact a b c := a.toInt - b.toInt - ((borrow c).toNat : Int)

/-- The operands exchanged. -/
def ArithmeticMeaning.flipped (m : ArithmeticMeaning) : ArithmeticMeaning where
  result a b c := m.result b a c
  carry a b c := m.carry b a c
  exact a b c := m.exact b a c

/-- The flags of an arithmetic operation by its meaning. -/
def ArithmeticMeaning.flags (m : ArithmeticMeaning) (p : Cpsr) (a b : Word) : Cpsr :=
  arithmeticFlags p (m.result a b p.c) (m.carry a b p.c) (m.exact a b p.c)

/-- What an arithmetic operation with a destination other than r15 does. -/
def ArithmeticResult (mk : DpForm) (m : ArithmeticMeaning) : Prop :=
  ∀ (c : Cond) (setFlags : Bool) (rn rd : RegNum) (op2 : Operand2) (s : State),
    condPassed c s.cpsr = true → rd ≠ 15#4 →
    ∃ t, exec (mk c setFlags rn rd op2) s = .next t ∧
      t.armReg rd = m.result (firstOperand rn op2 s) (shifterOperand op2 s).1 s.cpsr.c ∧
      t.cpsr = (if setFlags then m.flags s.cpsr (firstOperand rn op2 s) (shifterOperand op2 s).1 else s.cpsr) ∧
      t.pc = s.pc + 4#32 ∧ RegisterFrame [rd] s t

/-- What an operation that only sets flags does; Rd must be 0 (30_encoding R254). -/
def TestResult (mk : TestForm) (flags : Cpsr → Word → Word → Bool → Cpsr) : Prop :=
  ∀ (c : Cond) (rn : RegNum) (op2 : Operand2) (s : State), condPassed c s.cpsr = true →
    ∃ t, exec (mk c rn 0#4 op2) s = .next t ∧
      t.cpsr = flags s.cpsr (firstOperand rn op2 s) (shifterOperand op2 s).1 (shifterOperand op2 s).2 ∧
      t.pc = s.pc + 4#32 ∧ RegisterFrame [] s t

/-- The data-processing instructions that write Rd, with the operation each computes. -/
def dpWriters : List (DpForm × DpOp) :=
  [(Instr.armAnd, .and), (Instr.armEor, .eor), (Instr.armSub, .sub), (Instr.armRsb, .rsb), (Instr.armAdd, .add),
    (Instr.armAdc, .adc), (Instr.armSbc, .sbc), (Instr.armRsc, .rsc), (Instr.armOrr, .orr), (Instr.armMov, .mov),
    (Instr.armBic, .bic), (Instr.armMvn, .mvn)]

/-- The data-processing instructions that only set flags. -/
def dpTests : List TestForm := [Instr.armTst, Instr.armTeq, Instr.armCmp, Instr.armCmn]

end Sys2Proof.Statements

open Sys2Proof Sys2Proof.Machine Sys2Proof.Statements

/-- AND, EOR, ORR, BIC, MOV and MVN with a destination other than r15 complete: Rd, N and Z from the result, C from the
shifter, V kept, and nothing else (41_arm_dataproc R400, R401, R414, R415, R418, R419; 40_shifter_alu R372). -/
def Obligations.ArmLogicalOperations : Prop :=
  LogicalResult Instr.armAnd true (fun a b => a &&& b) ∧ LogicalResult Instr.armEor true (fun a b => a ^^^ b) ∧
    LogicalResult Instr.armOrr true (fun a b => a ||| b) ∧ LogicalResult Instr.armBic true (fun a b => a &&& ~~~b) ∧
    LogicalResult Instr.armMov false (fun _ b => b) ∧ LogicalResult Instr.armMvn false (fun _ b => ~~~b)

/-- ADD, ADC, SUB, SBC, RSB and RSC with a destination other than r15 complete: Rd, and the four flags in the words of
integer arithmetic (41_arm_dataproc R402 to R407; 40_shifter_alu R370, R371, R373). -/
def Obligations.ArmArithmeticOperations : Prop :=
  ArithmeticResult Instr.armAdd (additionMeaning fun _ => false) ∧
    ArithmeticResult Instr.armAdc (additionMeaning id) ∧
    ArithmeticResult Instr.armSub (subtractionMeaning fun _ => false) ∧
    ArithmeticResult Instr.armSbc (subtractionMeaning not) ∧
    ArithmeticResult Instr.armRsb (subtractionMeaning fun _ => false).flipped ∧
    ArithmeticResult Instr.armRsc (subtractionMeaning not).flipped

/-- TST, TEQ, CMP and CMN complete: the flags of AND, EOR, SUB and ADD, and no register (41_arm_dataproc R410 to R413). -/
def Obligations.ArmTestOperations : Prop :=
  TestResult Instr.armTst (fun p a b sc => logicalFlags p (a &&& b) sc) ∧
    TestResult Instr.armTeq (fun p a b sc => logicalFlags p (a ^^^ b) sc) ∧
    TestResult Instr.armCmp (fun p a b _ => (subtractionMeaning fun _ => false).flags p a b) ∧
    TestResult Instr.armCmn (fun p a b _ => (additionMeaning fun _ => false).flags p a b)

/-- A data-processing write of r15 with S = 0 is a branch to the result when it is word aligned, and is refused when it
is not (41_arm_dataproc R408). -/
def Obligations.ArmDataProcessingBranch : Prop :=
  ∀ x ∈ dpWriters, ∀ (c : Cond) (rn : RegNum) (op2 : Operand2) (s : State), condPassed c s.cpsr = true →
    (x.2.ignoresRn = true → rn = 0#4) →
    if (dpResult x.2 rn op2 s).1.extractLsb' 0 2 = 0#2 then
      ∃ t, exec (x.1 c false rn 15#4 op2) s = .next t ∧ t.pc = (dpResult x.2 rn op2 s).1 ∧ t.cpsr = s.cpsr ∧
        RegisterFrame [] s t
    else exec (x.1 c false rn 15#4 op2) s = .refused .unalignedArmPcWrite

/-! ### Status and the exception return (10_state R57; 41_arm_dataproc R409, R416, R417; 60_exceptions R880) -/

namespace Sys2Proof.Statements

/-- The M field names a mode (10_state R53). -/
def legalModeBits (b : BitVec 5) : Bool :=
  b == 0x10#5 || b == 0x11#5 || b == 0x12#5 || b == 0x13#5 || b == 0x17#5 || b == 0x1B#5 || b == 0x1F#5

/-- What a restored SPSR makes of CPSR (60_exceptions R880): F is 1 and bits 27..8 are 0. -/
def restoredWord (v : Word) : Word := (v &&& 0xF00000FF#32) ||| 0x40#32

/-- `mk` is an MSR of the value `v`, in register or immediate form. -/
def IsMsr (mk : Instr) (c : Cond) (spsr : Bool) (mask : BitVec 4) (s : State) (v : Word) : Prop :=
  (∃ rm, rm ≠ 15#4 ∧ mk = .armMsrReg c spsr mask 15#4 0#4 rm ∧ v = s.armReg rm) ∨
    ∃ rot imm8, mk = .armMsrImm c spsr mask 15#4 rot imm8 ∧ v = (rotatedImm rot imm8 s.cpsr.c).1

/-- The bits an MSR to SPSR writes: byte 3 by mask bit 3, byte 0 by mask bit 0; the reserved bits never. -/
def savedBitWritten (mask : BitVec 4) (k : Nat) : Bool :=
  (decide (28 ≤ k) && mask.getLsbD 3) || (decide (k < 8) && mask.getLsbD 0)

end Sys2Proof.Statements

/-- CPSR as a word: N, Z, C, V in bits 31 to 28, bits 27 to 8 zero, I in bit 7, F in bit 6 always 1, T in bit 5, the mode
in bits 4 to 0; only User and System modes have no SPSR (10_state R53, R57, R58, R59). -/
def Obligations.StatusWordLayout : Prop :=
  (∀ p : Cpsr, p.toWord.getLsbD 31 = p.n ∧ p.toWord.getLsbD 30 = p.z ∧ p.toWord.getLsbD 29 = p.c ∧
      p.toWord.getLsbD 28 = p.v ∧ reservedStatusBits p.toWord = 0#20 ∧ p.toWord.getLsbD 7 = p.i ∧
      p.toWord.getLsbD 6 = true ∧ p.toWord.getLsbD 5 = p.t ∧
      p.toWord.extractLsb' 0 5 = (match p.mode with
        | .user => 0x10#5 | .fiq => 0x11#5 | .irq => 0x12#5 | .svc => 0x13#5 | .abt => 0x17#5 | .und => 0x1B#5
        | .sys => 0x1F#5)) ∧
    (∀ p q : Cpsr, p.toWord = q.toWord → p = q) ∧
    ∀ (l : Spsrs) (m : Mode), l.get? m = none ↔ m = .user ∨ m = .sys

/-- A data-processing write of r15 with S = 1 restores CPSR from the SPSR and branches, aligned by the restored T; it is
refused without an SPSR, on an illegal mode field, and on an ARM target that is not word aligned
(41_arm_dataproc R409; 60_exceptions R880). -/
def Obligations.ArmExceptionReturn : Prop :=
  ∀ x ∈ dpWriters, ∀ (c : Cond) (rn : RegNum) (op2 : Operand2) (s : State), condPassed c s.cpsr = true →
    (x.2.ignoresRn = true → rn = 0#4) →
    (s.spsrs.get? s.cpsr.mode = none → exec (x.1 c true rn 15#4 op2) s = .refused .noSpsrInMode) ∧
    ∀ v : Word, s.spsrs.get? s.cpsr.mode = some v →
      if legalModeBits (v.extractLsb' 0 5) = false then
        exec (x.1 c true rn 15#4 op2) s = .refused .illegalMode
      else if v.getLsbD 5 = false ∧ (dpResult x.2 rn op2 s).1.extractLsb' 0 2 ≠ 0#2 then
        exec (x.1 c true rn 15#4 op2) s = .refused .unalignedArmPcWrite
      else
        ∃ t, exec (x.1 c true rn 15#4 op2) s = .next t ∧ t.cpsr.toWord = restoredWord v ∧
          t.pc = (if v.getLsbD 5 then (dpResult x.2 rn op2 s).1 &&& 0xFFFFFFFE#32 else (dpResult x.2 rn op2 s).1) ∧
          RegisterFrame [] s t

/-- MRS reads CPSR in every mode and the SPSR of the modes that have one; it is refused for Rd = 15 and without an SPSR
(41_arm_dataproc R416). -/
def Obligations.MrsResult : Prop :=
  ∀ (c : Cond) (rd : RegNum) (s : State), condPassed c s.cpsr = true →
    (∀ spsr, exec (.armMrs c spsr 15#4 15#4 0#4 0#4) s = .refused .mrsToPc) ∧
    (rd ≠ 15#4 →
      (∃ t, exec (.armMrs c false 15#4 rd 0#4 0#4) s = .next t ∧ t.armReg rd = s.cpsr.toWord ∧ t.cpsr = s.cpsr ∧
        t.pc = s.pc + 4#32 ∧ RegisterFrame [rd] s t) ∧
      (s.spsrs.get? s.cpsr.mode = none → exec (.armMrs c true 15#4 rd 0#4 0#4) s = .refused .noSpsrInMode) ∧
      ∀ v, s.spsrs.get? s.cpsr.mode = some v →
        ∃ t, exec (.armMrs c true 15#4 rd 0#4 0#4) s = .next t ∧ t.armReg rd = v ∧ t.cpsr = s.cpsr ∧
          t.pc = s.pc + 4#32 ∧ RegisterFrame [rd] s t)

/-- MSR to CPSR: the flags by mask bit 3; I and the mode by mask bit 0 in a privileged mode only; a changed T and an
illegal mode are refused; x and s write nothing, F stays 1 (41_arm_dataproc R417; 60_exceptions R885). -/
def Obligations.MsrToStatus : Prop :=
  (∀ (c : Cond) (spsr : Bool) (mask : BitVec 4) (s : State), condPassed c s.cpsr = true →
    exec (.armMsrReg c spsr mask 15#4 0#4 15#4) s = .refused .msrFromPc) ∧
  ∀ (mk : Instr) (c : Cond) (mask : BitVec 4) (s : State) (v : Word), condPassed c s.cpsr = true →
    IsMsr mk c false mask s v →
    if s.cpsr.mode = .user ∨ mask.getLsbD 0 = false then
      ∃ t, exec mk s = .next t ∧
        t.cpsr = (if mask.getLsbD 3 then
          { s.cpsr with n := v.getLsbD 31, z := v.getLsbD 30, c := v.getLsbD 29, v := v.getLsbD 28 } else s.cpsr) ∧
        t.pc = s.pc + 4#32 ∧ RegisterFrame [] s t
    else if v.getLsbD 5 ≠ s.cpsr.t then exec mk s = .refused .msrChangesT
    else if legalModeBits (v.extractLsb' 0 5) = false then exec mk s = .refused .illegalMode
    else
      ∃ t, exec mk s = .next t ∧ t.cpsr.mode.bits = v.extractLsb' 0 5 ∧ t.cpsr.i = v.getLsbD 7 ∧ t.cpsr.t = s.cpsr.t ∧
        (if mask.getLsbD 3 then
          t.cpsr.n = v.getLsbD 31 ∧ t.cpsr.z = v.getLsbD 30 ∧ t.cpsr.c = v.getLsbD 29 ∧ t.cpsr.v = v.getLsbD 28
        else t.cpsr.n = s.cpsr.n ∧ t.cpsr.z = s.cpsr.z ∧ t.cpsr.c = s.cpsr.c ∧ t.cpsr.v = s.cpsr.v) ∧
        t.pc = s.pc + 4#32 ∧ RegisterFrame [] s t

/-- MSR to SPSR writes bits 31..28 by mask bit 3 and bits 7..0 by mask bit 0 of the current mode's SPSR and nothing else;
it is refused in User and System modes (41_arm_dataproc R417). -/
def Obligations.MsrToSaved : Prop :=
  ∀ (mk : Instr) (c : Cond) (mask : BitVec 4) (s : State) (v : Word), condPassed c s.cpsr = true →
    IsMsr mk c true mask s v →
    (s.spsrs.get? s.cpsr.mode = none → exec mk s = .refused .noSpsrInMode) ∧
    ∀ old, s.spsrs.get? s.cpsr.mode = some old →
      ∃ t new, exec mk s = .next t ∧ t.spsrs.get? s.cpsr.mode = some new ∧
        (∀ k < 32, new.getLsbD k = if savedBitWritten mask k then v.getLsbD k else old.getLsbD k) ∧
        (∀ m, m ≠ s.cpsr.mode → t.spsrs.get? m = s.spsrs.get? m) ∧ t.cpsr = s.cpsr ∧ t.pc = s.pc + 4#32 ∧
        RegisterFrame [] { s with spsrs := t.spsrs } t

/-- A should-be-zero or should-be-one field that is violated is refused once the condition passes (30_encoding R254). -/
def Obligations.FixedFieldsRefused : Prop :=
  ∀ (c : Cond) (s : State), condPassed c s.cpsr = true →
    (∀ setFlags rn rd op2, rn ≠ 0#4 →
      exec (.armMov c setFlags rn rd op2) s = .refused .sbzSboViolation ∧
      exec (.armMvn c setFlags rn rd op2) s = .refused .sbzSboViolation) ∧
    (∀ mk ∈ dpTests, ∀ rn rd op2, rd ≠ 0#4 → exec (mk c rn rd op2) s = .refused .sbzSboViolation) ∧
    (∀ spsr sbo rd high low, sbo ≠ 15#4 ∨ high ≠ 0#4 ∨ low ≠ 0#4 →
      exec (.armMrs c spsr sbo rd high low) s = .refused .sbzSboViolation) ∧
    (∀ spsr mask sbo sbz rm, sbo ≠ 15#4 ∨ sbz ≠ 0#4 →
      exec (.armMsrReg c spsr mask sbo sbz rm) s = .refused .sbzSboViolation) ∧
    (∀ spsr mask sbo rot imm8, sbo ≠ 15#4 → exec (.armMsrImm c spsr mask sbo rot imm8) s = .refused .sbzSboViolation) ∧
    (∀ setFlags rd sbz rs rm, sbz ≠ 0#4 → exec (.armMul c setFlags rd sbz rs rm) s = .refused .sbzSboViolation) ∧
    (∀ rn rd sbz rm, sbz ≠ 0#4 → exec (.armSwp c rn rd sbz rm) s = .refused .sbzSboViolation ∧
      exec (.armSwpb c rn rd sbz rm) s = .refused .sbzSboViolation) ∧
    (∀ p u w rn rd sbz rm, sbz ≠ 0#4 →
      exec (.armStrhReg c p u w rn rd sbz rm) s = .refused .sbzSboViolation ∧
      exec (.armLdrhReg c p u w rn rd sbz rm) s = .refused .sbzSboViolation ∧
      exec (.armLdrsbReg c p u w rn rd sbz rm) s = .refused .sbzSboViolation ∧
      exec (.armLdrshReg c p u w rn rd sbz rm) s = .refused .sbzSboViolation) ∧
    (∀ sbo rm, sbo ≠ 0xFFF#12 → exec (.armBx c sbo rm) s = .refused .sbzSboViolation)

/-! ### The shifter (40_shifter_alu R355 to R365) -/

namespace Sys2Proof.Statements

/-- A shift of `v` by `n` places, 0 < n < 32, with the last bit moved out as the carry (40_shifter_alu R360 to R363). -/
def ShiftedBy (kind : ShiftKind) (v : Word) (n : Nat) (r : Word × Bool) : Prop :=
  match kind with
  | .lsl => r.1.toNat = v.toNat * 2 ^ n % 2 ^ 32 ∧ r.2 = v.getLsbD (32 - n)
  | .lsr => r.1.toNat = v.toNat / 2 ^ n ∧ r.2 = v.getLsbD (n - 1)
  | .asr => r.1.toInt = v.toInt / 2 ^ n ∧ r.2 = v.getLsbD (n - 1)
  | .ror => (∀ k < 32, r.1.getLsbD k = v.getLsbD ((k + n) % 32)) ∧ r.2 = v.getLsbD (n - 1)

/-- All copies of bit 31. -/
def signWord (v : Word) : Word := if v.getLsbD 31 then 0xFFFFFFFF#32 else 0#32

end Sys2Proof.Statements

/-- The shifter. By an immediate: amounts 1 to 31, and the special meanings of amount 0 (LSL keeps, LSR and ASR by 32,
RRX). By a register: every amount of 0 to 255 (40_shifter_alu R356, R357). -/
def Obligations.ShifterResults : Prop :=
  (∀ (kind : ShiftKind) (v : Word) (n : Nat) (cin : Bool), n < 32 →
    if n ≠ 0 then ShiftedBy kind v n (shiftImmOp kind v n cin)
    else match kind with
      | .lsl => shiftImmOp kind v n cin = (v, cin)
      | .lsr => shiftImmOp kind v n cin = (0#32, v.getLsbD 31)
      | .asr => shiftImmOp kind v n cin = (signWord v, v.getLsbD 31)
      | .ror => (∀ k < 31, (shiftImmOp kind v n cin).1.getLsbD k = v.getLsbD (k + 1)) ∧
          (shiftImmOp kind v n cin).1.getLsbD 31 = cin ∧ (shiftImmOp kind v n cin).2 = v.getLsbD 0) ∧
  ∀ (kind : ShiftKind) (v : Word) (n : Nat) (cin : Bool), n < 256 →
    if n = 0 then shiftRegOp kind v n cin = (v, cin)
    else if n < 32 then ShiftedBy kind v n (shiftRegOp kind v n cin)
    else match kind with
      | .lsl => shiftRegOp kind v n cin = (0#32, if n = 32 then v.getLsbD 0 else false)
      | .lsr => shiftRegOp kind v n cin = (0#32, if n = 32 then v.getLsbD 31 else false)
      | .asr => shiftRegOp kind v n cin = (signWord v, v.getLsbD 31)
      | .ror => if n % 32 = 0 then shiftRegOp kind v n cin = (v, v.getLsbD 31)
          else ShiftedBy .ror v (n % 32) (shiftRegOp kind v n cin)

/-- The three forms of the second operand: an 8-bit immediate rotated right by twice `rot`, its carry C when `rot` is 0
and else bit 31; Rm shifted by an immediate; Rm shifted by the low byte of Rs. Rn, Rm and Rs read r15 as pc + 12 in the
last form, and as pc + 8 in the first two (40_shifter_alu R355, R358, R365; 10_state R62). -/
def Obligations.SecondOperandForms : Prop :=
  ∀ s : State,
    (∀ rot imm8, (∀ k < 32, (shifterOperand (.imm rot imm8) s).1.getLsbD k =
        (imm8.setWidth 32 : Word).getLsbD ((k + 2 * rot.toNat) % 32)) ∧
      (shifterOperand (.imm rot imm8) s).2 =
        (if rot = 0#4 then s.cpsr.c else (shifterOperand (.imm rot imm8) s).1.getLsbD 31)) ∧
    (∀ rot imm8 rn, firstOperand rn (.imm rot imm8) s = (if rn = 15#4 then s.pc + 8#32 else s.armReg rn)) ∧
    (∀ amount kind rm rn,
      shifterOperand (.shiftImm amount kind rm) s =
        shiftImmOp kind (if rm = 15#4 then s.pc + 8#32 else s.armReg rm) amount.toNat s.cpsr.c ∧
      firstOperand rn (.shiftImm amount kind rm) s = (if rn = 15#4 then s.pc + 8#32 else s.armReg rn)) ∧
    ∀ rs kind rm rn,
      shifterOperand (.shiftReg rs kind rm) s =
        shiftRegOp kind (if rm = 15#4 then s.pc + 12#32 else s.armReg rm)
          ((if rs = 15#4 then s.pc + 12#32 else s.armReg rs).toNat % 256) s.cpsr.c ∧
      firstOperand rn (.shiftReg rs kind rm) s = (if rn = 15#4 then s.pc + 12#32 else s.armReg rn)

/-! ### Accesses that are refused (20_memory R168; 70_reset_and_hazards R941) -/

namespace Sys2Proof.Statements

/-- A 16-bit or 32-bit access to cartridge SRAM (20_memory R168). -/
def WideSram (w : Width) (a : Word) : Prop := w ≠ .byte ∧ 0x0E000000 ≤ a.toNat ∧ a.toNat < 0x10000000

/-- The regions a store of a width changes (20_memory R154, R155, R160, R166 to R170); the whole I/O page counts, its
unused offsets and read-only granules too, which is the model's choice (log 13). -/
def StoreLands (w : Width) (a : Word) : Prop :=
  regionOf a = .ewram ∨ regionOf a = .iwram ∨ regionOf a = .palette ∨ regionOf a = .vram ∨ regionOf a = .io ∨
    (regionOf a = .oam ∧ w ≠ .byte) ∨ (regionOf a = .sram ∧ w = .byte)

/-- A stored byte is a byte of the two instruction slots from `start` on, whatever mirror names it
(70_reset_and_hazards R941; log 13). -/
def StoresInto (thumb : Bool) (start : Word) (w : Width) (a : Word) : Prop :=
  StoreLands w a ∧ ∃ b ∈ storedAddresses w a, ∃ k < (if thumb then 4 else 8), keyOf b = keyOf (start + BitVec.ofNat 32 k)

/-- A store of the instruction that executes in `s` writes a byte of the two instruction slots after it
(70_reset_and_hazards R941). -/
def MeetsWindow (s : State) (w : Width) (a : Word) : Prop :=
  StoresInto s.cpsr.t (s.pc + (if s.cpsr.t then 2#32 else 4#32)) w a

/-- A store of the executing instruction that neither rule refuses. -/
def CleanStore (s : State) (w : Width) (a : Word) : Prop := ¬ WideSram w a ∧ ¬ MeetsWindow s w a

/-- The first word of a block store that is refused lies in cartridge SRAM. -/
def StopsAtSram (s : State) (l : List (RegNum × Word)) : Prop :=
  ∃ pre x post, l = pre ++ x :: post ∧ (∀ y ∈ pre, CleanStore s .word y.2) ∧ WideSram .word x.2

/-- The first word of a block store that is refused meets the next two instruction slots. -/
def StopsAtWindow (s : State) (l : List (RegNum × Word)) : Prop :=
  ∃ pre x post, l = pre ++ x :: post ∧ (∀ y ∈ pre, CleanStore s .word y.2) ∧ ¬ WideSram .word x.2 ∧
    MeetsWindow s .word x.2

end Sys2Proof.Statements

/-! ### Multiply and swap (42_arm_multiply_swap) -/

namespace Sys2Proof.Statements

/-- MUL and MLA: the 32-bit result; with S = 1, N and Z from it, C some value, V kept (R457). -/
def MultiplyDone (i : Instr) (setFlags : Bool) (rd : RegNum) (res : Word) (s : State) : Prop :=
  ∃ t k, exec i s = .next t ∧ t.armReg rd = res ∧
    t.cpsr = (if setFlags then { s.cpsr with n := res.msb, z := decide (res = 0#32), c := k } else s.cpsr) ∧
    t.pc = s.pc + 4#32 ∧ RegisterFrame [rd] s t

/-- The long multiplies: the 64-bit result in RdHi : RdLo; with S = 1, N and Z from its 64 bits, C and V some values
(R457). -/
def MultiplyLongDone (i : Instr) (setFlags : Bool) (rdHi rdLo : RegNum) (res : BitVec 64) (s : State) : Prop :=
  ∃ t k l, exec i s = .next t ∧ t.armReg rdHi ++ t.armReg rdLo = res ∧
    t.cpsr = (if setFlags then { s.cpsr with n := res.msb, z := decide (res = 0#64), c := k, v := l } else s.cpsr) ∧
    t.pc = s.pc + 4#32 ∧ RegisterFrame [rdHi, rdLo] s t

end Sys2Proof.Statements

/-- MUL and MLA give the low 32 bits; UMULL, UMLAL, SMULL and SMLAL give the 64-bit result; the forbidden operands of
each are refused (42_arm_multiply_swap R450 to R457). -/
def Obligations.MultiplyResults : Prop :=
  (∀ (c : Cond) (setFlags : Bool) (rd rn rs rm : RegNum) (s : State), condPassed c s.cpsr = true →
    (if rd = 15#4 ∨ rs = 15#4 ∨ rm = 15#4 ∨ rd = rm then
      exec (.armMul c setFlags rd 0#4 rs rm) s = .refused .multiplyOperands
    else
      MultiplyDone (.armMul c setFlags rd 0#4 rs rm) setFlags rd
        (BitVec.ofNat 32 ((s.armReg rm).toNat * (s.armReg rs).toNat)) s) ∧
    (if rd = 15#4 ∨ rn = 15#4 ∨ rs = 15#4 ∨ rm = 15#4 ∨ rd = rm then
      exec (.armMla c setFlags rd rn rs rm) s = .refused .multiplyOperands
    else
      MultiplyDone (.armMla c setFlags rd rn rs rm) setFlags rd
        (BitVec.ofNat 32 ((s.armReg rm).toNat * (s.armReg rs).toNat + (s.armReg rn).toNat)) s)) ∧
  ∀ (c : Cond) (setFlags : Bool) (rdHi rdLo rs rm : RegNum) (s : State), condPassed c s.cpsr = true →
    if rdHi = 15#4 ∨ rdLo = 15#4 ∨ rs = 15#4 ∨ rm = 15#4 ∨ rdHi = rdLo ∨ rdHi = rm ∨ rdLo = rm then
      exec (.armUmull c setFlags rdHi rdLo rs rm) s = .refused .multiplyOperands ∧
      exec (.armUmlal c setFlags rdHi rdLo rs rm) s = .refused .multiplyOperands ∧
      exec (.armSmull c setFlags rdHi rdLo rs rm) s = .refused .multiplyOperands ∧
      exec (.armSmlal c setFlags rdHi rdLo rs rm) s = .refused .multiplyOperands
    else
      MultiplyLongDone (.armUmull c setFlags rdHi rdLo rs rm) setFlags rdHi rdLo
        (BitVec.ofNat 64 ((s.armReg rm).toNat * (s.armReg rs).toNat)) s ∧
      MultiplyLongDone (.armUmlal c setFlags rdHi rdLo rs rm) setFlags rdHi rdLo
        (BitVec.ofNat 64 ((s.armReg rm).toNat * (s.armReg rs).toNat +
          ((s.armReg rdHi).toNat * 2 ^ 32 + (s.armReg rdLo).toNat))) s ∧
      MultiplyLongDone (.armSmull c setFlags rdHi rdLo rs rm) setFlags rdHi rdLo
        (BitVec.ofInt 64 ((s.armReg rm).toInt * (s.armReg rs).toInt)) s ∧
      MultiplyLongDone (.armSmlal c setFlags rdHi rdLo rs rm) setFlags rdHi rdLo
        (BitVec.ofInt 64 ((s.armReg rm).toInt * (s.armReg rs).toInt +
          ((s.armReg rdHi).toNat * 2 ^ 32 + (s.armReg rdLo).toNat : Nat))) s

/-- SWP and SWPB: Rd takes what memory held, memory takes Rm; the forbidden operands are refused, and so is SWP of
cartridge SRAM (42_arm_multiply_swap R460 to R462; 20_memory R168). -/
def Obligations.SwapResults : Prop :=
  ∀ (c : Cond) (rn rd rm : RegNum) (s : State), condPassed c s.cpsr = true →
    if rd = 15#4 ∨ rn = 15#4 ∨ rm = 15#4 ∨ rn = rm ∨ rn = rd then
      exec (.armSwp c rn rd 0#4 rm) s = .refused .swapOperands ∧ exec (.armSwpb c rn rd 0#4 rm) s = .refused .swapOperands
    else
      (WideSram .word (s.armReg rn) → exec (.armSwp c rn rd 0#4 rm) s = .refused .sramWideAccess) ∧
      (storeAdmitted s .word (s.armReg rn) (s.armReg rm) →
        ∃ t, exec (.armSwp c rn rd 0#4 rm) s = .next t ∧
          t.armReg rd = (s.memRead .word (s.armReg rn)).rotateRight (8 * ((s.armReg rn).toNat % 4)) ∧
          StoreEffect .word (s.armReg rn) (s.armReg rm) s t ∧ t.cpsr = s.cpsr ∧ t.pc = s.pc + 4#32 ∧
          StoreFrame [rd] (storedAddresses .word (s.armReg rn)) s t) ∧
      (storeAdmitted s .byte (s.armReg rn) (s.armReg rm) →
        ∃ t, exec (.armSwpb c rn rd 0#4 rm) s = .next t ∧ t.armReg rd = (s.readByte (s.armReg rn)).setWidth 32 ∧
          StoreEffect .byte (s.armReg rn) (s.armReg rm) s t ∧ t.cpsr = s.cpsr ∧ t.pc = s.pc + 4#32 ∧
          StoreFrame [rd] (storedAddresses .byte (s.armReg rn)) s t)

/-! ### Single transfers (43_arm_loadstore R480 to R495) -/

namespace Sys2Proof.Statements

/-- The word and byte transfers, the T forms being P = 0 with W = 1 (43_arm_loadstore R481 to R487). -/
def transferInstr (load byte : Bool) (c : Cond) (x : Indexing) (rn rd : RegNum) (o : Offset12) : Instr :=
  match load, byte, x.p, x.w, o with
  | true, false, true, w, .imm imm12 => .armLdrImmPre c x.u w rn rd imm12
  | true, false, false, false, .imm imm12 => .armLdrImmPost c x.u rn rd imm12
  | true, false, false, true, .imm imm12 => .armLdrtImm c x.u rn rd imm12
  | true, false, true, w, .reg n k rm => .armLdrRegPre c x.u w rn rd n k rm
  | true, false, false, false, .reg n k rm => .armLdrRegPost c x.u rn rd n k rm
  | true, false, false, true, .reg n k rm => .armLdrtReg c x.u rn rd n k rm
  | true, true, true, w, .imm imm12 => .armLdrbImmPre c x.u w rn rd imm12
  | true, true, false, false, .imm imm12 => .armLdrbImmPost c x.u rn rd imm12
  | true, true, false, true, .imm imm12 => .armLdrbtImm c x.u rn rd imm12
  | true, true, true, w, .reg n k rm => .armLdrbRegPre c x.u w rn rd n k rm
  | true, true, false, false, .reg n k rm => .armLdrbRegPost c x.u rn rd n k rm
  | true, true, false, true, .reg n k rm => .armLdrbtReg c x.u rn rd n k rm
  | false, false, true, w, .imm imm12 => .armStrImmPre c x.u w rn rd imm12
  | false, false, false, false, .imm imm12 => .armStrImmPost c x.u rn rd imm12
  | false, false, false, true, .imm imm12 => .armStrtImm c x.u rn rd imm12
  | false, false, true, w, .reg n k rm => .armStrRegPre c x.u w rn rd n k rm
  | false, false, false, false, .reg n k rm => .armStrRegPost c x.u rn rd n k rm
  | false, false, false, true, .reg n k rm => .armStrtReg c x.u rn rd n k rm
  | false, true, true, w, .imm imm12 => .armStrbImmPre c x.u w rn rd imm12
  | false, true, false, false, .imm imm12 => .armStrbImmPost c x.u rn rd imm12
  | false, true, false, true, .imm imm12 => .armStrbtImm c x.u rn rd imm12
  | false, true, true, w, .reg n k rm => .armStrbRegPre c x.u w rn rd n k rm
  | false, true, false, false, .reg n k rm => .armStrbRegPost c x.u rn rd n k rm
  | false, true, false, true, .reg n k rm => .armStrbtReg c x.u rn rd n k rm

/-- The forms the addressing rule refuses: an offset register r15, writeback to r15, and a load with writeback into its
own base (43_arm_loadstore R480). -/
def transferAdmitted (x : Indexing) (rn rd : RegNum) (o : Offset12) (load : Bool) : Prop :=
  o.usesPc = false ∧ (x.writesBack = true → rn ≠ 15#4 ∧ (load = true → rn ≠ rd))

/-- The registers a load writes. -/
def loadWrites (x : Indexing) (rn rd : RegNum) : List RegNum := if x.writesBack then [rd, rn] else [rd]

/-- The registers a store writes: the base, under writeback. -/
def baseWrites (wb : Bool) (rn : RegNum) : List RegNum := if wb then [rn] else []

/-- The four ways to index, spelled out: the moved base is base plus or minus the offset, the address is the moved base
under P = 1 and the base under P = 0, and P = 0 or W = 1 writes back (43_arm_loadstore R480, R490). -/
def IndexingRule (x : Indexing) (base offset moved addr : Word) : Prop :=
  (x.u = true → moved = base + offset) ∧ (x.u = false → moved = base - offset) ∧ (x.p = true → addr = moved) ∧
    (x.p = false → addr = base) ∧ (x.writesBack = true ↔ x.p = false ∨ x.w = true)

/-- A halfword-class instruction as its fields make it; register forms with their fixed bits 0. -/
abbrev HalfwordForm := Cond → Indexing → RegNum → RegNum → Offset8 → Instr

def ldrh : HalfwordForm
  | c, x, rn, rd, .imm h l => .armLdrhImm c x.p x.u x.w rn rd h l
  | c, x, rn, rd, .reg rm => .armLdrhReg c x.p x.u x.w rn rd 0#4 rm

def ldrsb : HalfwordForm
  | c, x, rn, rd, .imm h l => .armLdrsbImm c x.p x.u x.w rn rd h l
  | c, x, rn, rd, .reg rm => .armLdrsbReg c x.p x.u x.w rn rd 0#4 rm

def ldrsh : HalfwordForm
  | c, x, rn, rd, .imm h l => .armLdrshImm c x.p x.u x.w rn rd h l
  | c, x, rn, rd, .reg rm => .armLdrshReg c x.p x.u x.w rn rd 0#4 rm

def strh : HalfwordForm
  | c, x, rn, rd, .imm h l => .armStrhImm c x.p x.u x.w rn rd h l
  | c, x, rn, rd, .reg rm => .armStrhReg c x.p x.u x.w rn rd 0#4 rm

/-- The forms the halfword addressing rule does not refuse (43_arm_loadstore R490). -/
def halfwordAdmitted (x : Indexing) (rn rd : RegNum) (o : Offset8) (load : Bool) : Prop :=
  o.usesPc = false ∧ (x.p = true ∨ x.w = false) ∧ rd ≠ 15#4 ∧
    (x.writesBack = true → rn ≠ 15#4 ∧ (load = true → rn ≠ rd))

/-- What a load into Rd does. -/
def LoadDone (i : Instr) (written : List RegNum) (rd : RegNum) (v : Word) (wb : Bool) (rn : RegNum) (moved : Word)
    (s : State) : Prop :=
  ∃ t, exec i s = .next t ∧ t.armReg rd = v ∧ (wb = true → t.armReg rn = moved) ∧ t.cpsr = s.cpsr ∧
    t.pc = s.pc + 4#32 ∧ RegisterFrame written s t

/-- What a store of `v` at `a` does. -/
def StoreDone (i : Instr) (w : Width) (a v : Word) (wb : Bool) (rn : RegNum) (moved : Word) (s : State) : Prop :=
  ∃ t, exec i s = .next t ∧ StoreEffect w a v s t ∧ (wb = true → t.armReg rn = moved) ∧ t.cpsr = s.cpsr ∧
    t.pc = s.pc + 4#32 ∧ StoreFrame (baseWrites wb rn) (storedAddresses w a) s t

end Sys2Proof.Statements

/-- The address and the moved base of every single transfer, from base, offset, P and U; the offset is the immediate, Rm
shifted by an immediate, or Rm (43_arm_loadstore R480, R490). -/
def Obligations.TransferAddressing : Prop :=
  ∀ (x : Indexing) (rn : RegNum) (s : State),
    (∀ imm12, IndexingRule x (if rn = 15#4 then s.pc + 8#32 else s.armReg rn) (BitVec.ofNat 32 imm12.toNat)
      (transferMoved x rn (.imm imm12) s) (transferAddress x rn (.imm imm12) s)) ∧
    (∀ n kind rm, IndexingRule x (if rn = 15#4 then s.pc + 8#32 else s.armReg rn)
      (shiftImmOp kind (s.armReg rm) n.toNat s.cpsr.c).1
      (transferMoved x rn (.reg n kind rm) s) (transferAddress x rn (.reg n kind rm) s)) ∧
    (∀ immH immL, IndexingRule x (if rn = 15#4 then s.pc + 8#32 else s.armReg rn)
      (BitVec.ofNat 32 (16 * immH.toNat + immL.toNat))
      (halfwordMoved x rn (.imm immH immL) s) (halfwordAddress x rn (.imm immH immL) s)) ∧
    ∀ rm, IndexingRule x (if rn = 15#4 then s.pc + 8#32 else s.armReg rn) (s.armReg rm)
      (halfwordMoved x rn (.reg rm) s) (halfwordAddress x rn (.reg rm) s)

/-- LDR, LDRT, LDRB and LDRBT into r0..r14: the word rotated so that the addressed byte is lowest, or the byte
zero-extended; the base under writeback (43_arm_loadstore R480, R481, R484, R486). -/
def Obligations.LoadResults : Prop :=
  ∀ (c : Cond) (x : Indexing) (rn rd : RegNum) (o : Offset12) (s : State), condPassed c s.cpsr = true →
    transferAdmitted x rn rd o true → rd ≠ 15#4 →
    (loadAdmitted .word (transferAddress x rn o s) →
      LoadDone (transferInstr true false c x rn rd o) (loadWrites x rn rd) rd
        ((s.memRead .word (transferAddress x rn o s)).rotateRight (8 * ((transferAddress x rn o s).toNat % 4)))
        x.writesBack rn (transferMoved x rn o s) s) ∧
    LoadDone (transferInstr true true c x rn rd o) (loadWrites x rn rd) rd
      ((s.readByte (transferAddress x rn o s)).setWidth 32) x.writesBack rn (transferMoved x rn o s) s

/-- LDR and LDRT into r15 from an aligned address branch to the word with its low bits cleared, in ARM state; a
misaligned address is refused (43_arm_loadstore R483). -/
def Obligations.LoadPc : Prop :=
  ∀ (c : Cond) (x : Indexing) (rn : RegNum) (o : Offset12) (s : State), condPassed c s.cpsr = true →
    transferAdmitted x rn 15#4 o true → loadAdmitted .word (transferAddress x rn o s) →
    if (transferAddress x rn o s).toNat % 4 ≠ 0 then
      exec (transferInstr true false c x rn 15#4 o) s = .refused .unalignedPcLoad
    else
      ∃ t, exec (transferInstr true false c x rn 15#4 o) s = .next t ∧
        t.pc = s.memRead .word (transferAddress x rn o s) &&& 0xFFFFFFFC#32 ∧
        (x.writesBack = true → t.armReg rn = transferMoved x rn o s) ∧ t.cpsr = s.cpsr ∧
        RegisterFrame (baseWrites x.writesBack rn) s t

/-- STR, STRT, STRB and STRBT store Rd as it was, r15 as pc + 12, then write the base back (43_arm_loadstore R480, R482,
R485, R487). -/
def Obligations.StoreResults : Prop :=
  ∀ (c : Cond) (x : Indexing) (rn rd : RegNum) (o : Offset12) (s : State), condPassed c s.cpsr = true →
    transferAdmitted x rn rd o false →
    (storeAdmitted s .word (transferAddress x rn o s) (if rd = 15#4 then s.pc + 12#32 else s.armReg rd) →
      StoreDone (transferInstr false false c x rn rd o) .word (transferAddress x rn o s)
        (if rd = 15#4 then s.pc + 12#32 else s.armReg rd) x.writesBack rn (transferMoved x rn o s) s) ∧
    (rd ≠ 15#4 → storeAdmitted s .byte (transferAddress x rn o s) (s.armReg rd) →
      StoreDone (transferInstr false true c x rn rd o) .byte (transferAddress x rn o s) (s.armReg rd)
        x.writesBack rn (transferMoved x rn o s) s)

/-- LDRH, LDRSB and LDRSH: the halfword zero-extended, the byte and the halfword sign-extended. STRH stores the low
halfword of Rd, then writes the base back (43_arm_loadstore R490 to R494). -/
def Obligations.HalfwordTransfers : Prop :=
  ∀ (c : Cond) (x : Indexing) (rn rd : RegNum) (o : Offset8) (s : State), condPassed c s.cpsr = true →
    (halfwordAdmitted x rn rd o true →
      LoadDone (ldrsb c x rn rd o) (loadWrites x rn rd) rd ((s.readByte (halfwordAddress x rn o s)).signExtend 32)
        x.writesBack rn (halfwordMoved x rn o s) s ∧
      ((halfwordAddress x rn o s).toNat % 2 = 0 → loadAdmitted .half (halfwordAddress x rn o s) →
        LoadDone (ldrh c x rn rd o) (loadWrites x rn rd) rd ((s.readHalf (halfwordAddress x rn o s)).setWidth 32)
          x.writesBack rn (halfwordMoved x rn o s) s ∧
        LoadDone (ldrsh c x rn rd o) (loadWrites x rn rd) rd ((s.readHalf (halfwordAddress x rn o s)).signExtend 32)
          x.writesBack rn (halfwordMoved x rn o s) s)) ∧
    (halfwordAdmitted x rn rd o false → (halfwordAddress x rn o s).toNat % 2 = 0 →
      storeAdmitted s .half (halfwordAddress x rn o s) (s.armReg rd) →
      StoreDone (strh c x rn rd o) .half (halfwordAddress x rn o s) (s.armReg rd) x.writesBack rn
        (halfwordMoved x rn o s) s)

/-- The single transfers the spec refuses: the addressing forms, r15 as data of a byte or halfword transfer, an odd
halfword address, a 16-bit or 32-bit access to cartridge SRAM, and the halfword stores with SH = 10 or 11
(43_arm_loadstore R480, R484, R485, R490, R495; 20_memory R168; 30_encoding R252). Where a misaligned load of r15 from
SRAM has two reasons, the one named is the model's choice (log 14). -/
def Obligations.TransfersRefused : Prop :=
  (∀ (w : Width) (a : Word), ¬ loadAdmitted w a ↔ WideSram w a) ∧
  ∀ (c : Cond) (s : State), condPassed c s.cpsr = true →
    (∀ load byte x rn rd o,
      (o.usesPc = true → exec (transferInstr load byte c x rn rd o) s = .refused .loadStoreOffsetPc) ∧
      (o.usesPc = false → x.writesBack = true → rn = 15#4 →
        exec (transferInstr load byte c x rn rd o) s = .refused .writebackPc) ∧
      (o.usesPc = false → x.writesBack = true → rn ≠ 15#4 → rn = rd →
        exec (transferInstr true byte c x rn rd o) s = .refused .loadWritebackSameRegister) ∧
      (transferAdmitted x rn 15#4 o load →
        exec (transferInstr load true c x rn 15#4 o) s =
          .refused (if load then .byteLoadToPc else .byteStoreFromPc)) ∧
      (transferAdmitted x rn rd o load → WideSram .word (transferAddress x rn o s) →
        exec (transferInstr load false c x rn rd o) s =
          .refused (if load = true ∧ rd = 15#4 ∧ (transferAddress x rn o s).toNat % 4 ≠ 0 then .unalignedPcLoad
            else .sramWideAccess))) ∧
    (∀ mk ∈ [ldrh, ldrsb, ldrsh, strh], ∀ x rn rd o,
      (o.usesPc = true → exec (mk c x rn rd o) s = .refused .loadStoreOffsetPc) ∧
      (o.usesPc = false → x.p = false → x.w = true → exec (mk c x rn rd o) s = .refused .halfwordPostIndexW) ∧
      (o.usesPc = false → (x.p = true ∨ x.w = false) → x.writesBack = true → rn = 15#4 →
        exec (mk c x rn rd o) s = .refused .writebackPc)) ∧
    (∀ mk ∈ [ldrh, ldrsb, ldrsh], ∀ x rn rd o, o.usesPc = false → (x.p = true ∨ x.w = false) → x.writesBack = true →
      rn ≠ 15#4 → rn = rd → exec (mk c x rn rd o) s = .refused .loadWritebackSameRegister) ∧
    (∀ mk ∈ [ldrh, ldrsb, ldrsh, strh], ∀ x rn o, o.usesPc = false → (x.p = true ∨ x.w = false) →
      (x.writesBack = true → rn ≠ 15#4) → exec (mk c x rn 15#4 o) s = .refused .halfwordTransferPc) ∧
    (∀ x rn rd o, (halfwordAddress x rn o s).toNat % 2 = 1 →
      (halfwordAdmitted x rn rd o true → exec (ldrh c x rn rd o) s = .refused .unalignedHalfword ∧
        exec (ldrsh c x rn rd o) s = .refused .unalignedHalfword) ∧
      (halfwordAdmitted x rn rd o false → exec (strh c x rn rd o) s = .refused .unalignedHalfword)) ∧
    (∀ x rn rd o, (halfwordAddress x rn o s).toNat % 2 = 0 → WideSram .half (halfwordAddress x rn o s) →
      (halfwordAdmitted x rn rd o true → exec (ldrh c x rn rd o) s = .refused .sramWideAccess ∧
        exec (ldrsh c x rn rd o) s = .refused .sramWideAccess) ∧
      (halfwordAdmitted x rn rd o false → exec (strh c x rn rd o) s = .refused .sramWideAccess)) ∧
    ∀ puiw mid sh0 low, exec (.armStrhDspace c puiw mid sh0 low) s = .refused .halfwordLoadStoreDoubleSpace

/-! ### Block transfers (43_arm_loadstore R510 to R516) -/

namespace Sys2Proof.Statements

/-- The registers of a block transfer with their addresses. -/
def slotsOf (p u : Bool) (rn : RegNum) (rlist : BitVec 16) (s : State) : List (RegNum × Word) :=
  blockSlots (blockStart p u (s.armReg rn) rlist) (listedRegs rlist)

/-- Rn is no listed register, or writeback is off. -/
def noListedBase (w : Bool) (rn : RegNum) (rlist : BitVec 16) : Prop := w = true → rlist.getLsbD rn.toNat = false

/-- A base that writeback moves is the lowest listed register, or none (43_arm_loadstore R514). -/
def listedBaseFirst (w : Bool) (rn : RegNum) (rlist : BitVec 16) : Prop :=
  w = true → rlist.getLsbD rn.toNat = true → (listedRegs rlist).head? = some rn

/-- The words of the slots, as bytes stored. -/
def slotAddresses (l : List (RegNum × Word)) : List Word := l.flatMap fun x => storedAddresses .word x.2

end Sys2Proof.Statements

/-- The list holds the registers of the set bits, rising; the start and the new base by P and U; the k-th register uses
(start + 4k) AND NOT 3 (43_arm_loadstore R510). -/
def Obligations.BlockAddresses : Prop :=
  ∀ (rlist : BitVec 16) (base : Word),
    (∀ i : RegNum, i ∈ listedRegs rlist ↔ rlist.getLsbD i.toNat = true) ∧
    (listedRegs rlist).Pairwise (fun i j => i.toNat < j.toNat) ∧
    (∀ size : Word, size = BitVec.ofNat 32 (4 * (listedRegs rlist).length) →
      blockStart false true base rlist = base ∧ blockStart true true base rlist = base + 4#32 ∧
      blockStart false false base rlist = base - size + 4#32 ∧ blockStart true false base rlist = base - size ∧
      blockNewBase true base rlist = base + size ∧ blockNewBase false base rlist = base - size) ∧
    ∀ start : Word, (blockSlots start (listedRegs rlist)).length = (listedRegs rlist).length ∧
      ∀ k i, (listedRegs rlist)[k]? = some i →
        (blockSlots start (listedRegs rlist))[k]? =
          some (i, (start + BitVec.ofNat 32 (4 * k)) &&& 0xFFFFFFFC#32)

/-- LDM with S = 0 and without r15 (43_arm_loadstore R514, R515). -/
def Obligations.LoadMultiple : Prop :=
  ∀ (c : Cond) (p u w : Bool) (rn : RegNum) (rlist : BitVec 16) (s : State), condPassed c s.cpsr = true →
    rlist ≠ 0#16 → rn ≠ 15#4 → noListedBase w rn rlist → rlist.getLsbD 15 = false →
    (∀ x ∈ slotsOf p u rn rlist s, loadAdmitted .word x.2) →
    ∃ t, exec (.armLdm c p u w rn rlist) s = .next t ∧
      (∀ x ∈ slotsOf p u rn rlist s, t.armReg x.1 = s.memRead .word x.2) ∧
      (w = true → t.armReg rn = blockNewBase u (s.armReg rn) rlist) ∧ t.cpsr = s.cpsr ∧ t.pc = s.pc + 4#32 ∧
      RegisterFrame (baseWrites w rn ++ listedRegs rlist) s t

/-- LDM with r15: with S = 0 a branch in ARM state; with S = 1 the registers of the old mode, then CPSR from the SPSR and
a branch aligned by the restored T; refused without an SPSR or on an illegal mode field (43_arm_loadstore R512, R513,
R515). -/
def Obligations.LoadMultiplePc : Prop :=
  ∀ (c : Cond) (p u w : Bool) (rn : RegNum) (rlist : BitVec 16) (s : State), condPassed c s.cpsr = true →
    rn ≠ 15#4 → noListedBase w rn rlist → rlist.getLsbD 15 = true →
    (∀ x ∈ slotsOf p u rn rlist s, loadAdmitted .word x.2) →
    (∃ t, exec (.armLdm c p u w rn rlist) s = .next t ∧
      (∀ x ∈ slotsOf p u rn rlist s,
        if x.1 = 15#4 then t.pc = s.memRead .word x.2 &&& 0xFFFFFFFC#32 else t.armReg x.1 = s.memRead .word x.2) ∧
      (w = true → t.armReg rn = blockNewBase u (s.armReg rn) rlist) ∧ t.cpsr = s.cpsr ∧
      RegisterFrame (baseWrites w rn ++ listedRegs rlist) s t) ∧
    (s.spsrs.get? s.cpsr.mode = none → exec (.armLdmUser c p u w rn rlist) s = .refused .noSpsrInMode) ∧
    ∀ v, s.spsrs.get? s.cpsr.mode = some v →
      if legalModeBits (v.extractLsb' 0 5) = false then exec (.armLdmUser c p u w rn rlist) s = .refused .illegalMode
      else
        ∃ t, exec (.armLdmUser c p u w rn rlist) s = .next t ∧ t.cpsr.toWord = restoredWord v ∧
          (∀ x ∈ slotsOf p u rn rlist s,
            if x.1 = 15#4 then
              t.pc = s.memRead .word x.2 &&& (if v.getLsbD 5 then 0xFFFFFFFE#32 else 0xFFFFFFFC#32)
            else t.readRegMode s.cpsr.mode 0#32 x.1 = s.memRead .word x.2) ∧
          (w = true → t.readRegMode s.cpsr.mode 0#32 rn = blockNewBase u (s.armReg rn) rlist) ∧
          RegisterFrame (baseWrites w rn ++ listedRegs rlist) s t

/-- STM stores the listed registers, r15 as pc + 12 and a lowest listed base as it was, then writes the base back; with
S = 1 it stores the User registers (43_arm_loadstore R511, R514, R516). -/
def Obligations.StoreMultiple : Prop :=
  ∀ (c : Cond) (p u w : Bool) (rn : RegNum) (rlist : BitVec 16) (s : State), condPassed c s.cpsr = true →
    rlist ≠ 0#16 → rn ≠ 15#4 →
    (listedBaseFirst w rn rlist →
      (∀ x ∈ slotsOf p u rn rlist s, storeAdmitted s .word x.2 (s.readReg (s.pc + 12#32) x.1)) →
      ∃ t, exec (.armStm c p u w rn rlist) s = .next t ∧
        WordsEffect ((slotsOf p u rn rlist s).map fun x => (x.2, s.readReg (s.pc + 12#32) x.1)) s t ∧
        (w = true → t.armReg rn = blockNewBase u (s.armReg rn) rlist) ∧ t.cpsr = s.cpsr ∧ t.pc = s.pc + 4#32 ∧
        StoreFrame (baseWrites w rn) (slotAddresses (slotsOf p u rn rlist s)) s t) ∧
    (w = false → s.cpsr.mode ≠ .user → s.cpsr.mode ≠ .sys →
      (∀ x ∈ slotsOf p u rn rlist s, storeAdmitted s .word x.2 (s.readRegMode .user (s.pc + 12#32) x.1)) →
      ∃ t, exec (.armStmUser c p u w rn rlist) s = .next t ∧
        WordsEffect ((slotsOf p u rn rlist s).map fun x => (x.2, s.readRegMode .user (s.pc + 12#32) x.1)) s t ∧
        t.cpsr = s.cpsr ∧ t.pc = s.pc + 4#32 ∧ StoreFrame [] (slotAddresses (slotsOf p u rn rlist s)) s t)

/-- LDM with S = 1 and without r15 loads the User registers whatever the mode, and sets the user-bank hazard
(43_arm_loadstore R511, R515; 70_reset_and_hazards R942). -/
def Obligations.LoadUserBank : Prop :=
  ∀ (c : Cond) (p u : Bool) (rn : RegNum) (rlist : BitVec 16) (s : State), condPassed c s.cpsr = true →
    rlist ≠ 0#16 → rn ≠ 15#4 → rlist.getLsbD 15 = false → s.cpsr.mode ≠ .user → s.cpsr.mode ≠ .sys →
    (∀ x ∈ slotsOf p u rn rlist s, loadAdmitted .word x.2) →
    ∃ t, exec (.armLdmUser c p u false rn rlist) s = .next t ∧
      (∀ x ∈ slotsOf p u rn rlist s, t.readRegMode .user 0#32 x.1 = s.memRead .word x.2) ∧
      (∀ q : PhysReg, (∀ i ∈ listedRegs rlist, physReg .user i ≠ some q) → t.reg q = s.reg q) ∧
      t.userBankHazard = true ∧ t.cpsr = s.cpsr ∧ t.pc = s.pc + 4#32 ∧
      KeepsAllButCpu { s with userBankHazard := true } t ∧ KeepsMemory s t

/-- The block transfers the spec refuses: no register, base r15, writeback with the base listed, the S = 1 forms in
User and System modes or with writeback, and a word in cartridge SRAM (43_arm_loadstore R510, R511, R514; 20_memory
R168). Where several of these hold at once, the reason named is the model's choice (log 14); a block store names the
first word that is refused. -/
def Obligations.BlockTransfersRefused : Prop :=
  ∀ (c : Cond) (p u w : Bool) (rn : RegNum) (rlist : BitVec 16) (s : State), condPassed c s.cpsr = true →
    (∀ mk ∈ [Instr.armLdm, Instr.armLdmUser, Instr.armStm, Instr.armStmUser],
      exec (mk c p u w rn 0#16) s = .refused .emptyRegisterList ∧
      (rlist ≠ 0#16 → exec (mk c p u w 15#4 rlist) s = .refused .blockTransferBasePc)) ∧
    (rlist ≠ 0#16 → rn ≠ 15#4 →
      (w = true → rlist.getLsbD rn.toNat = true →
        exec (.armLdm c p u w rn rlist) s = .refused .ldmWritebackBaseInList ∧
        ((listedRegs rlist).head? ≠ some rn →
          exec (.armStm c p u w rn rlist) s = .refused .stmWritebackBaseNotFirst) ∧
        (rlist.getLsbD 15 = true →
          exec (.armLdmUser c p u w rn rlist) s = .refused .ldmWritebackBaseInList)) ∧
      (s.cpsr.mode = .user ∨ s.cpsr.mode = .sys →
        exec (.armStmUser c p u w rn rlist) s = .refused .userBankInUserMode ∧
        (rlist.getLsbD 15 = false → exec (.armLdmUser c p u w rn rlist) s = .refused .userBankInUserMode)) ∧
      (w = true → s.cpsr.mode ≠ .user → s.cpsr.mode ≠ .sys →
        exec (.armStmUser c p u w rn rlist) s = .refused .userBankWriteback ∧
        (rlist.getLsbD 15 = false → exec (.armLdmUser c p u w rn rlist) s = .refused .userBankWriteback)) ∧
      ((∃ x ∈ slotsOf p u rn rlist s, WideSram .word x.2) →
        (noListedBase w rn rlist → exec (.armLdm c p u w rn rlist) s = .refused .sramWideAccess ∧
          (rlist.getLsbD 15 = true → exec (.armLdmUser c p u w rn rlist) s = .refused .sramWideAccess)) ∧
        (w = false → s.cpsr.mode ≠ .user → s.cpsr.mode ≠ .sys →
          exec (.armLdmUser c p u w rn rlist) s = .refused .sramWideAccess)) ∧
      (StopsAtSram s (slotsOf p u rn rlist s) →
        (listedBaseFirst w rn rlist → exec (.armStm c p u w rn rlist) s = .refused .sramWideAccess) ∧
        (w = false → s.cpsr.mode ≠ .user → s.cpsr.mode ≠ .sys →
          exec (.armStmUser c p u w rn rlist) s = .refused .sramWideAccess)))

/-! ### Register banks (10_state R51, R52, R62) -/

namespace Sys2Proof.Statements

/-- Whether register number `i` names one register in both modes (10_state R52): r0 to r7 always, r8 to r12 unless one
mode is FIQ, r13 and r14 only within one mode or between User and System. -/
def sharedBank (m n : Mode) (i : RegNum) : Bool :=
  if i.toNat < 8 then true
  else if i.toNat < 13 then (m == .fiq) == (n == .fiq)
  else m == n || ((m == .user || m == .sys) && (n == .user || n == .sys))

end Sys2Proof.Statements

/-- A register written in one mode reads back in every mode that shares it and changes no other register of any mode;
r15 reads pc + 8 in ARM state and pc + 4 in Thumb state (10_state R52, R62). -/
def Obligations.RegisterBanks : Prop :=
  (∀ (s : State) (m n : Mode) (i j : RegNum) (v r15 : Word), i ≠ 15#4 →
    (s.writeRegMode m i v).readRegMode n r15 j =
      if j = i ∧ sharedBank m n i = true then v else s.readRegMode n r15 j) ∧
  ∀ s : State, s.armReg 15#4 = s.pc + 8#32 ∧ s.thumbReg 15#4 = s.pc + 4#32

/-! ### Conditions (40_shifter_alu R350 to R352) -/

/-- The sixteen conditions, and what an ARM instruction whose condition fails does: PC advances by 4 and nothing else
happens. The condition of an ARM instruction is in bits 31 to 28 of its word (30_encoding R251; 40_shifter_alu R350). -/
def Obligations.ConditionCodes : Prop :=
  (∀ (k : Cond) (p : Cpsr), condPassed k p = true ↔ (match k with
    | .eq => p.z = true | .ne => p.z = false
    | .cs => p.c = true | .cc => p.c = false
    | .mi => p.n = true | .pl => p.n = false
    | .vs => p.v = true | .vc => p.v = false
    | .hi => p.c = true ∧ p.z = false | .ls => p.c = false ∨ p.z = true
    | .ge => p.n = p.v | .lt => p.n ≠ p.v
    | .gt => p.z = false ∧ p.n = p.v | .le => p.z = true ∨ p.n ≠ p.v
    | .al => True | .nv => False)) ∧
  (∀ w : Word, (condOf (decodeArm w)).toBits = w.extractLsb' 28 4) ∧
  ∀ (i : Instr) (w : Word) (s : State), encode i = .arm w → condPassed (condOf i) s.cpsr = false →
    exec i s = .next { s with pc := s.pc + 4#32 }

/-! ### Branches (44_arm_branch_system; 45_thumb_alu R607; 46_thumb_mem_branch R670 to R681) -/

namespace Sys2Proof.Statements

/-- What a branch that exchanges the state does with a value: Thumb when bit 0 is set; ARM when bits 1 and 0 are 0; a
value with bits 1 and 0 equal to 10 is refused (44_arm_branch_system R552, 45_thumb_alu R607). -/
def ExchangeDone (i : Instr) (v : Word) (s : State) : Prop :=
  if v.toNat % 4 = 2 then exec i s = .refused .unalignedArmPcWrite
  else
    ∃ t, exec i s = .next t ∧ t.pc = BitVec.ofNat 32 (v.toNat - v.toNat % 2) ∧
      t.cpsr = { s.cpsr with t := decide (v.toNat % 2 = 1) } ∧ RegisterFrame [] s t

/-- The conditional branches of Thumb with their conditions (46_thumb_mem_branch R670). -/
def thumbConditionals : List (Cond × (BitVec 8 → Instr)) :=
  [(.eq, Instr.thumbBeq), (.ne, Instr.thumbBne), (.cs, Instr.thumbBcs), (.cc, Instr.thumbBcc), (.mi, Instr.thumbBmi),
    (.pl, Instr.thumbBpl), (.vs, Instr.thumbBvs), (.vc, Instr.thumbBvc), (.hi, Instr.thumbBhi), (.ls, Instr.thumbBls),
    (.ge, Instr.thumbBge), (.lt, Instr.thumbBlt), (.gt, Instr.thumbBgt), (.le, Instr.thumbBle)]

end Sys2Proof.Statements

/-- B and BL go to pc + 8 + 4 * off24, BL leaves pc + 4 in r14; BX exchanges (44_arm_branch_system R550 to R552). -/
def Obligations.ArmBranches : Prop :=
  ∀ (c : Cond) (s : State), condPassed c s.cpsr = true →
    (∀ off24 : BitVec 24,
      (∃ t, exec (.armB c off24) s = .next t ∧ t.pc = BitVec.ofInt 32 (s.pc.toNat + 8 + 4 * off24.toInt) ∧
        t.cpsr = s.cpsr ∧ RegisterFrame [] s t) ∧
      ∃ t, exec (.armBl c off24) s = .next t ∧ t.pc = BitVec.ofInt 32 (s.pc.toNat + 8 + 4 * off24.toInt) ∧
        t.armReg 14#4 = s.pc + 4#32 ∧ t.cpsr = s.cpsr ∧ RegisterFrame [14#4] s t) ∧
    ∀ rm, ExchangeDone (.armBx c 0xFFF#12 rm) (if rm = 15#4 then s.pc + 8#32 else s.armReg rm) s

/-- The Thumb branches: the fourteen conditional ones, B, the two halves of BL and what they do together, and BX, whose
field violations are refused (46_thumb_mem_branch R670, R672, R680, R681; 45_thumb_alu R607). -/
def Obligations.ThumbBranches : Prop :=
  ∀ s : State,
    (∀ x ∈ thumbConditionals, ∀ soff8, ∃ t, exec (x.2 soff8) s = .next t ∧
      t.pc = (if condPassed x.1 s.cpsr then BitVec.ofInt 32 (s.pc.toNat + 4 + 2 * soff8.toInt) else s.pc + 2#32) ∧
      t.cpsr = s.cpsr ∧ RegisterFrame [] s t) ∧
    (∀ off11, ∃ t, exec (.thumbB off11) s = .next t ∧ t.pc = BitVec.ofInt 32 (s.pc.toNat + 4 + 2 * off11.toInt) ∧
      t.cpsr = s.cpsr ∧ RegisterFrame [] s t) ∧
    (∀ hi, ∃ t, exec (.thumbBlHi hi) s = .next t ∧
      t.thumbReg 14#4 = BitVec.ofInt 32 (s.pc.toNat + 4 + 4096 * hi.toInt) ∧ t.pc = s.pc + 2#32 ∧ t.cpsr = s.cpsr ∧
      RegisterFrame [14#4] s t ∧
      (s.pc.toNat % 2 = 0 → ∀ lo, ∃ u, exec (.thumbBlLo lo) t = .next u ∧
        u.pc = BitVec.ofInt 32 (s.pc.toNat + 4 + 4096 * hi.toInt + 2 * lo.toNat) ∧
        u.thumbReg 14#4 = s.pc + 5#32)) ∧
    (∀ lo, ∃ t, exec (.thumbBlLo lo) s = .next t ∧
      t.pc = (s.thumbReg 14#4 + BitVec.ofNat 32 (2 * lo.toNat)) &&& 0xFFFFFFFE#32 ∧
      t.thumbReg 14#4 = (s.pc + 2#32) ||| 1#32 ∧ t.cpsr = s.cpsr ∧ RegisterFrame [14#4] s t) ∧
    (∀ r, ExchangeDone (.thumbBx false r 0#3) (if r = 15#4 then s.pc + 4#32 else s.thumbReg r) s) ∧
    ∀ h1 r sbz, h1 = true ∨ sbz ≠ 0#3 → exec (.thumbBx h1 r sbz) s = .refused .thumbBxFields

/-! ### Taking an exception (60_exceptions R870 to R876) -/

namespace Sys2Proof.Statements

/-- Exception entry from `s` into a mode, to a vector, with a return address: CPSR to the SPSR of the new mode, I set, T
cleared, the flags kept, the return address to r14 of the new mode, PC to the vector; the user-bank hazard is cleared;
nothing else changes (60_exceptions R871, 70_reset_and_hazards R942). -/
structure EntersException (m : Mode) (vector ret : Word) (s t : State) : Prop where
  status : t.cpsr = { s.cpsr with i := true, t := false, mode := m }
  pc : t.pc = vector
  link : t.readRegMode m 0#32 14#4 = ret
  saved : t.spsrs.get? m = some s.cpsr.toWord
  otherSaved : ∀ n, n ≠ m → t.spsrs.get? n = s.spsrs.get? n
  registers : ∀ q, physReg m 14#4 ≠ some q → t.reg q = s.reg q
  hazard : t.userBankHazard = false
  rest : KeepsAllButCpu { s with spsrs := t.spsrs, userBankHazard := false } t
  memory : KeepsMemory s t

/-- The ARM instructions of the Undefined class (44_arm_branch_system R560, R561). -/
inductive ArmUndefined (c : Cond) : Instr → Prop where
  | a14 high low : ArmUndefined c (.armUndefA14 c high low)
  | mulspace high mid low : ArmUndefined c (.armUndefMulspace c high mid low)
  | misc imm op rest : ArmUndefined c (.armUndefMisc c imm op rest)
  | ldc p u n w rn crd cp off8 : ArmUndefined c (.armLdc c p u n w rn crd cp off8)
  | stc p u n w rn crd cp off8 : ArmUndefined c (.armStc c p u n w rn crd cp off8)
  | cdp op1 crn crd cp op2 crm : ArmUndefined c (.armCdp c op1 crn crd cp op2 crm)
  | mcr op1 crn rd cp op2 crm : ArmUndefined c (.armMcr c op1 crn rd cp op2 crm)
  | mrc op1 crn rd cp op2 crm : ArmUndefined c (.armMrc c op1 crn rd cp op2 crm)

/-- The Thumb halfwords that are Undefined (46_thumb_mem_branch R690). -/
inductive ThumbUndefined : Instr → Prop where
  | cond low : ThumbUndefined (.thumbUndefCond low)
  | long low : ThumbUndefined (.thumbUndefLong low)
  | misc op low : ThumbUndefined (.thumbUndefMisc op low)

/-- `s` as its CPU step finds it, with `rest` to come: the step belongs to the budget of the current scanline, or opens
the budget of the next of the 228 when this one is rendered (70_reset_and_hazards R950; log 8). -/
def openedTurn (s : State) (rest : List Turn) : State :=
  { s with schedule := rest, line := if s.phase = .effects then s.line + 1 else s.line, phase := .budget }

/-- The CPU moves in `s`, and `u` is `s` with its turn taken (00_scope R6). -/
def CpuTurn (s u : State) : Prop :=
  (s.schedule = [] ∧ u = openedTurn s []) ∨ ∃ rest, s.schedule = .cpu :: rest ∧ u = openedTurn s rest

/-- The IRQ condition (60_exceptions R870). -/
def IrqWanted (u : State) : Prop :=
  u.cpsr.i = false ∧ (u.ioRaw .ime).getLsbD 0 = true ∧ u.ioRaw .ie &&& u.ioRaw .if_ &&& 0x3FFF#16 ≠ 0#16

end Sys2Proof.Statements

/-- SWI enters Supervisor mode at 0x08 and an Undefined instruction enters Undefined mode at 0x04, in both states; the
return address is that of the next instruction (44_arm_branch_system R553, R560, R561; 46_thumb_mem_branch R671, R690;
60_exceptions R871 to R874). -/
def Obligations.SoftwareExceptions : Prop :=
  (∀ (c : Cond) (s : State), s.cpsr.t = false → condPassed c s.cpsr = true →
    (∀ comment, ∃ t, exec (.armSwi c comment) s = .next t ∧ EntersException .svc 0x08#32 (s.pc + 4#32) s t) ∧
    ∀ i, ArmUndefined c i → ∃ t, exec i s = .next t ∧ EntersException .und 0x04#32 (s.pc + 4#32) s t) ∧
  ∀ s : State, s.cpsr.t = true →
    (∀ value, ∃ t, exec (.thumbSwi value) s = .next t ∧ EntersException .svc 0x08#32 (s.pc + 2#32) s t) ∧
    ∀ i, ThumbUndefined i → ∃ t, exec i s = .next t ∧ EntersException .und 0x04#32 (s.pc + 2#32) s t

/-- At an instruction boundary, with I clear, IME set and an enabled request pending, the CPU step is the IRQ entry: IRQ
mode, 0x18, the return address pc + 4 in ARM state, and pc + 2 or pc + 4 in Thumb state, which the spec leaves open
(60_exceptions R870, R875, R876; log 20). The cycles and the draws move on as the model counts them (log 6, log 7). -/
def Obligations.IrqEntry : Prop :=
  ∀ s u : State, CpuTurn s u → IrqWanted u →
    ∃ t k, step s = .next t ∧ EntersException .irq 0x18#32 (u.pc + k) { u with cycles := t.cycles, draws := t.draws } t ∧
      (if u.cpsr.t then k = 2#32 ∨ k = 4#32 else k = 4#32)

namespace Sys2Proof.Statements

/-- `h` is the last state of a handler that left the mode, r14 and the SPSR as the entry made them in `t`
(60_exceptions R882). -/
def LeftAsEntered (t h : State) : Prop :=
  h.cpsr.mode = t.cpsr.mode ∧ h.spsrs.get? t.cpsr.mode = t.spsrs.get? t.cpsr.mode ∧
    h.readRegMode t.cpsr.mode 0#32 14#4 = t.readRegMode t.cpsr.mode 0#32 14#4

/-- `i` raises SWI or Undefined in `s`. -/
def RaisesHere (i : Instr) (s : State) : Prop :=
  (∃ c, s.cpsr.t = false ∧ condPassed c s.cpsr = true ∧ ((∃ comment, i = .armSwi c comment) ∨ ArmUndefined c i)) ∨
    s.cpsr.t = true ∧ ((∃ value, i = .thumbSwi value) ∨ ThumbUndefined i)

end Sys2Proof.Statements

/-- Entry and return: after SWI or Undefined, MOVS pc, r14 resumes at the next instruction with the CPSR of before; after
an IRQ, SUBS pc, r14, #4 resumes at the interrupted address (in Thumb state when the return offset is 4). A law the
spec derives from 60_exceptions R871 and R880, itself no rule. -/
def Obligations.ExceptionRoundTrip : Prop :=
  (∀ (i : Instr) (s t h : State), RaisesHere i s → s.pcAligned → exec i s = .next t → LeftAsEntered t h →
    ∃ r, exec (.armMov .al true 0#4 15#4 (.shiftImm 0#5 .lsl 14#4)) h = .next r ∧ r.cpsr = s.cpsr ∧
      r.pc = s.pc + (if s.cpsr.t then 2#32 else 4#32) ∧ RegisterFrame [] h r) ∧
  ∀ s u t h : State, CpuTurn s u → IrqWanted u → u.pcAligned → step s = .next t → LeftAsEntered t h →
    (u.cpsr.t = true → t.readRegMode .irq 0#32 14#4 = u.pc + 4#32) →
    ∃ r, exec (.armSub .al true 14#4 15#4 (.imm 0#4 4#8)) h = .next r ∧ r.cpsr = u.cpsr ∧ r.pc = u.pc ∧
      RegisterFrame [] h r

/-! ### Thumb data processing (45_thumb_alu) -/

namespace Sys2Proof.Statements

/-- A Thumb instruction that writes a register, perhaps flags, and goes on at pc + 2. -/
def ThumbDone (i : Instr) (d : RegNum) (res : Word) (flags : Cpsr) (s : State) : Prop :=
  ∃ t, exec i s = .next t ∧ t.thumbReg d = res ∧ t.cpsr = flags ∧ t.pc = s.pc + 2#32 ∧ RegisterFrame [d] s t

/-- A Thumb instruction that only sets flags. -/
def ThumbFlagsDone (i : Instr) (flags : Cpsr) (s : State) : Prop :=
  ∃ t, exec i s = .next t ∧ t.cpsr = flags ∧ t.pc = s.pc + 2#32 ∧ RegisterFrame [] s t

/-- N and Z from a result, C and V kept. -/
def nzFlags (p : Cpsr) (r : Word) : Cpsr := { p with n := r.msb, z := decide (r = 0#32) }

/-- A Thumb shift: the result and carry of the shifter. -/
def ThumbShiftDone (i : Instr) (rd : LowReg) (r : Word × Bool) (s : State) : Prop :=
  ThumbDone i (lowReg rd) r.1 (logicalFlags s.cpsr r.1 r.2) s

/-- A Thumb arithmetic instruction on two operands. -/
def ThumbArithmeticDone (i : Instr) (rd : LowReg) (m : ArithmeticMeaning) (a b : Word) (s : State) : Prop :=
  ThumbDone i (lowReg rd) (m.result a b s.cpsr.c) (m.flags s.cpsr a b) s

end Sys2Proof.Statements

/-- The Thumb shifts, by an immediate and by the low byte of Rs (45_thumb_alu R580 to R582, R593 to R595, R598). -/
def Obligations.ThumbShifts : Prop :=
  ∀ (off5 : BitVec 5) (rs rd : LowReg) (s : State),
    ThumbShiftDone (.thumbLslImm off5 rs rd) rd (shiftImmOp .lsl (s.low rs) off5.toNat s.cpsr.c) s ∧
    ThumbShiftDone (.thumbLsrImm off5 rs rd) rd (shiftImmOp .lsr (s.low rs) off5.toNat s.cpsr.c) s ∧
    ThumbShiftDone (.thumbAsrImm off5 rs rd) rd (shiftImmOp .asr (s.low rs) off5.toNat s.cpsr.c) s ∧
    ThumbShiftDone (.thumbLslReg rs rd) rd (shiftRegOp .lsl (s.low rd) ((s.low rs).toNat % 256) s.cpsr.c) s ∧
    ThumbShiftDone (.thumbLsrReg rs rd) rd (shiftRegOp .lsr (s.low rd) ((s.low rs).toNat % 256) s.cpsr.c) s ∧
    ThumbShiftDone (.thumbAsrReg rs rd) rd (shiftRegOp .asr (s.low rd) ((s.low rs).toNat % 256) s.cpsr.c) s ∧
    ThumbShiftDone (.thumbRorReg rs rd) rd (shiftRegOp .ror (s.low rd) ((s.low rs).toNat % 256) s.cpsr.c) s

/-- The Thumb additions, subtractions and comparisons of low registers, in the words of integer arithmetic
(45_thumb_alu R583 to R586, R588 to R590, R596, R597, R600 to R602). -/
def Obligations.ThumbArithmetic : Prop :=
  ∀ (rn rs rd : LowReg) (off3 : BitVec 3) (off8 : BitVec 8) (s : State),
    ThumbArithmeticDone (.thumbAddReg rn rs rd) rd (additionMeaning fun _ => false) (s.low rs) (s.low rn) s ∧
    ThumbArithmeticDone (.thumbSubReg rn rs rd) rd (subtractionMeaning fun _ => false) (s.low rs) (s.low rn) s ∧
    ThumbArithmeticDone (.thumbAddImm3 off3 rs rd) rd (additionMeaning fun _ => false) (s.low rs)
      (BitVec.ofNat 32 off3.toNat) s ∧
    ThumbArithmeticDone (.thumbSubImm3 off3 rs rd) rd (subtractionMeaning fun _ => false) (s.low rs)
      (BitVec.ofNat 32 off3.toNat) s ∧
    ThumbArithmeticDone (.thumbAddImm8 rd off8) rd (additionMeaning fun _ => false) (s.low rd)
      (BitVec.ofNat 32 off8.toNat) s ∧
    ThumbArithmeticDone (.thumbSubImm8 rd off8) rd (subtractionMeaning fun _ => false) (s.low rd)
      (BitVec.ofNat 32 off8.toNat) s ∧
    ThumbArithmeticDone (.thumbAdc rs rd) rd (additionMeaning id) (s.low rd) (s.low rs) s ∧
    ThumbArithmeticDone (.thumbSbc rs rd) rd (subtractionMeaning not) (s.low rd) (s.low rs) s ∧
    ThumbArithmeticDone (.thumbNeg rs rd) rd (subtractionMeaning fun _ => false) 0#32 (s.low rs) s ∧
    ThumbFlagsDone (.thumbCmpImm rd off8)
      ((subtractionMeaning fun _ => false).flags s.cpsr (s.low rd) (BitVec.ofNat 32 off8.toNat)) s ∧
    ThumbFlagsDone (.thumbCmpReg rs rd) ((subtractionMeaning fun _ => false).flags s.cpsr (s.low rd) (s.low rs)) s ∧
    ThumbFlagsDone (.thumbCmn rs rd) ((additionMeaning fun _ => false).flags s.cpsr (s.low rd) (s.low rs)) s

/-- The Thumb logical operations, MOV immediate and TST set N and Z and keep C and V; MUL leaves C some value and is
refused when Rd is Rs (45_thumb_alu R587, R591, R592, R599, R608, R609, R613, R614; 42_arm_multiply_swap R457). -/
def Obligations.ThumbLogical : Prop :=
  ∀ (rs rd : LowReg) (off8 : BitVec 8) (s : State),
    ThumbDone (.thumbMovImm rd off8) (lowReg rd) (BitVec.ofNat 32 off8.toNat)
      (nzFlags s.cpsr (BitVec.ofNat 32 off8.toNat)) s ∧
    ThumbDone (.thumbAnd rs rd) (lowReg rd) (s.low rd &&& s.low rs) (nzFlags s.cpsr (s.low rd &&& s.low rs)) s ∧
    ThumbDone (.thumbEor rs rd) (lowReg rd) (s.low rd ^^^ s.low rs) (nzFlags s.cpsr (s.low rd ^^^ s.low rs)) s ∧
    ThumbDone (.thumbOrr rs rd) (lowReg rd) (s.low rd ||| s.low rs) (nzFlags s.cpsr (s.low rd ||| s.low rs)) s ∧
    ThumbDone (.thumbBic rs rd) (lowReg rd) (s.low rd &&& ~~~s.low rs) (nzFlags s.cpsr (s.low rd &&& ~~~s.low rs)) s ∧
    ThumbDone (.thumbMvn rs rd) (lowReg rd) (~~~s.low rs) (nzFlags s.cpsr (~~~s.low rs)) s ∧
    ThumbFlagsDone (.thumbTst rs rd) (nzFlags s.cpsr (s.low rd &&& s.low rs)) s ∧
    (if rd = rs then exec (.thumbMul rs rd) s = .refused .multiplyOperands
    else
      ∃ k, ThumbDone (.thumbMul rs rd) (lowReg rd) (BitVec.ofNat 32 ((s.low rs).toNat * (s.low rd).toNat))
        { nzFlags s.cpsr (BitVec.ofNat 32 ((s.low rs).toNat * (s.low rd).toNat)) with c := k } s)

/-- The high-register operations read r15 as pc + 4 and set no flag but CMP's; a write of r15 is a branch with bit 0
cleared; two low registers are refused. The SP and PC additions set no flag (45_thumb_alu R603 to R606, R610 to R612,
R615). -/
def Obligations.ThumbHighRegisters : Prop :=
  ∀ s : State,
    (∀ r d : RegNum, r.toNat < 8 → d.toNat < 8 →
      exec (.thumbAddHi r d) s = .refused .hiRegOpLowRegisters ∧
      exec (.thumbCmpHi r d) s = .refused .hiRegOpLowRegisters ∧
      exec (.thumbMovHi r d) s = .refused .hiRegOpLowRegisters) ∧
    (∀ r d : RegNum, 8 ≤ r.toNat ∨ 8 ≤ d.toNat →
      ThumbFlagsDone (.thumbCmpHi r d)
        ((subtractionMeaning fun _ => false).flags s.cpsr (s.thumbReg d) (s.thumbReg r)) s ∧
      if d = 15#4 then
        (∃ t, exec (.thumbAddHi r d) s = .next t ∧ t.pc = (s.pc + 4#32 + s.thumbReg r) &&& 0xFFFFFFFE#32 ∧
          t.cpsr = s.cpsr ∧ RegisterFrame [] s t) ∧
        ∃ t, exec (.thumbMovHi r d) s = .next t ∧ t.pc = s.thumbReg r &&& 0xFFFFFFFE#32 ∧ t.cpsr = s.cpsr ∧
          RegisterFrame [] s t
      else
        ThumbDone (.thumbAddHi r d) d (s.thumbReg d + s.thumbReg r) s.cpsr s ∧
        ThumbDone (.thumbMovHi r d) d (s.thumbReg r) s.cpsr s) ∧
    (∀ (rd : LowReg) (word8 : BitVec 8),
      ThumbDone (.thumbAddPc rd word8) (lowReg rd)
        (((s.pc + 4#32) &&& 0xFFFFFFFC#32) + BitVec.ofNat 32 (4 * word8.toNat)) s.cpsr s ∧
      ThumbDone (.thumbAddSp rd word8) (lowReg rd) (s.thumbReg 13#4 + BitVec.ofNat 32 (4 * word8.toNat)) s.cpsr s) ∧
    ∀ sword7 : BitVec 7,
      ThumbDone (.thumbAddSpImm sword7) 13#4 (s.thumbReg 13#4 + BitVec.ofNat 32 (4 * sword7.toNat)) s.cpsr s ∧
      ThumbDone (.thumbSubSpImm sword7) 13#4 (s.thumbReg 13#4 - BitVec.ofNat 32 (4 * sword7.toNat)) s.cpsr s

/-! ### Thumb loads and stores (46_thumb_mem_branch R640 to R662) -/

namespace Sys2Proof.Statements

/-- The Thumb single loads: the form, its width, whether it extends a sign, and its address (46_thumb_mem_branch R640 to
R656). -/
inductive ThumbLoadForm (s : State) (rd : LowReg) : Instr → Width → Bool → Word → Prop where
  | pc word8 : ThumbLoadForm s rd (.thumbLdrPc rd word8) .word false
      (((s.pc + 4#32) &&& 0xFFFFFFFC#32) + BitVec.ofNat 32 (4 * word8.toNat))
  | sp word8 : ThumbLoadForm s rd (.thumbLdrSp rd word8) .word false
      (s.thumbReg 13#4 + BitVec.ofNat 32 (4 * word8.toNat))
  | wordReg ro rb : ThumbLoadForm s rd (.thumbLdrReg ro rb rd) .word false (s.low rb + s.low ro)
  | byteReg ro rb : ThumbLoadForm s rd (.thumbLdrbReg ro rb rd) .byte false (s.low rb + s.low ro)
  | halfReg ro rb : ThumbLoadForm s rd (.thumbLdrhReg ro rb rd) .half false (s.low rb + s.low ro)
  | signedByte ro rb : ThumbLoadForm s rd (.thumbLdsbReg ro rb rd) .byte true (s.low rb + s.low ro)
  | signedHalf ro rb : ThumbLoadForm s rd (.thumbLdshReg ro rb rd) .half true (s.low rb + s.low ro)
  | wordImm off5 rb : ThumbLoadForm s rd (.thumbLdrImm off5 rb rd) .word false
      (s.low rb + BitVec.ofNat 32 (4 * off5.toNat))
  | byteImm off5 rb : ThumbLoadForm s rd (.thumbLdrbImm off5 rb rd) .byte false (s.low rb + BitVec.ofNat 32 off5.toNat)
  | halfImm off5 rb : ThumbLoadForm s rd (.thumbLdrhImm off5 rb rd) .half false
      (s.low rb + BitVec.ofNat 32 (2 * off5.toNat))

/-- The Thumb single stores: the form, its width and its address. -/
inductive ThumbStoreForm (s : State) (rd : LowReg) : Instr → Width → Word → Prop where
  | sp word8 : ThumbStoreForm s rd (.thumbStrSp rd word8) .word (s.thumbReg 13#4 + BitVec.ofNat 32 (4 * word8.toNat))
  | wordReg ro rb : ThumbStoreForm s rd (.thumbStrReg ro rb rd) .word (s.low rb + s.low ro)
  | byteReg ro rb : ThumbStoreForm s rd (.thumbStrbReg ro rb rd) .byte (s.low rb + s.low ro)
  | halfReg ro rb : ThumbStoreForm s rd (.thumbStrhReg ro rb rd) .half (s.low rb + s.low ro)
  | wordImm off5 rb : ThumbStoreForm s rd (.thumbStrImm off5 rb rd) .word
      (s.low rb + BitVec.ofNat 32 (4 * off5.toNat))
  | byteImm off5 rb : ThumbStoreForm s rd (.thumbStrbImm off5 rb rd) .byte (s.low rb + BitVec.ofNat 32 off5.toNat)
  | halfImm off5 rb : ThumbStoreForm s rd (.thumbStrhImm off5 rb rd) .half
      (s.low rb + BitVec.ofNat 32 (2 * off5.toNat))

/-- The value a load of a width gives: the word rotated so that the addressed byte is lowest, the byte or the halfword
extended (43_arm_loadstore R481, R491, R493, R494). -/
def loadedValue (w : Width) (signed : Bool) (a : Word) (s : State) : Word :=
  match w, signed with
  | .word, _ => (s.memRead .word a).rotateRight (8 * (a.toNat % 4))
  | .byte, false => (s.readByte a).setWidth 32
  | .byte, true => (s.readByte a).signExtend 32
  | .half, false => (s.readHalf a).setWidth 32
  | .half, true => (s.readHalf a).signExtend 32

/-- The list of PUSH and POP: the low registers, and r14 or r15. -/
def stackList (low : BitVec 8) (extra : RegNum) (withExtra : Bool) : List RegNum :=
  listedRegs (low.setWidth 16) ++ if withExtra then [extra] else []

/-- The words of a Thumb block transfer from an address on: one word for each register, in order. -/
def wordSlots (start : Word) (l : List RegNum) : List (RegNum × Word) :=
  l.zipIdx.map fun x => (x.1, (start + BitVec.ofNat 32 (4 * x.2)) &&& 0xFFFFFFFC#32)

/-- PUSH, with or without r14. -/
def pushInstr (withLr : Bool) (low : BitVec 8) : Instr := if withLr then .thumbPushLr low else .thumbPush low

/-- POP, with or without r15. -/
def popInstr (withPc : Bool) (low : BitVec 8) : Instr := if withPc then .thumbPopPc low else .thumbPop low

end Sys2Proof.Statements

/-- Every Thumb single load completes with its value in Rd and no flag changed; an odd halfword address and a 16-bit or
32-bit access to cartridge SRAM are refused (46_thumb_mem_branch R640, R643, R644, R646 to R648, R650, R652, R654, R656;
43_arm_loadstore R495; 20_memory R168). -/
def Obligations.ThumbLoads : Prop :=
  ∀ (s : State) (rd : LowReg) (i : Instr) (w : Width) (signed : Bool) (a : Word), ThumbLoadForm s rd i w signed a →
    (w = .half → a.toNat % 2 = 1 → exec i s = .refused .unalignedHalfword) ∧
    ((w = .half → a.toNat % 2 = 0) → WideSram w a → exec i s = .refused .sramWideAccess) ∧
    ((w = .half → a.toNat % 2 = 0) → loadAdmitted w a → ThumbDone i (lowReg rd) (loadedValue w signed a s) s.cpsr s)

/-- Every Thumb single store completes with Rd stored; an odd halfword address and a 16-bit or 32-bit access to cartridge
SRAM are refused (46_thumb_mem_branch R641, R642, R645, R649, R651, R653, R655; 43_arm_loadstore R495; 20_memory
R168). -/
def Obligations.ThumbStores : Prop :=
  ∀ (s : State) (rd : LowReg) (i : Instr) (w : Width) (a : Word), ThumbStoreForm s rd i w a →
    (w = .half → a.toNat % 2 = 1 → exec i s = .refused .unalignedHalfword) ∧
    ((w = .half → a.toNat % 2 = 0) → WideSram w a → exec i s = .refused .sramWideAccess) ∧
    ((w = .half → a.toNat % 2 = 0) → storeAdmitted s w a (s.low rd) →
      ∃ t, exec i s = .next t ∧ StoreEffect w a (s.low rd) s t ∧ t.cpsr = s.cpsr ∧ t.pc = s.pc + 2#32 ∧
        StoreFrame [] (storedAddresses w a) s t)

/-- PUSH and STMIA store the listed registers, lowest at the lowest address, and move the base; no register, a listed
base that is not the lowest, and a word in cartridge SRAM are refused (46_thumb_mem_branch R657, R658, R661; 20_memory
R168). -/
def Obligations.ThumbStoreMultiple : Prop :=
  ∀ (s : State) (low : BitVec 8),
    (∀ withLr, if low = 0#8 ∧ withLr = false then exec (pushInstr withLr low) s = .refused .emptyRegisterList
      else ∀ l sp, l = wordSlots sp (stackList low 14#4 withLr) →
        sp = s.thumbReg 13#4 - BitVec.ofNat 32 (4 * (stackList low 14#4 withLr).length) →
        (StopsAtSram s l → exec (pushInstr withLr low) s = .refused .sramWideAccess) ∧
        ((∀ x ∈ l, storeAdmitted s .word x.2 (s.thumbReg x.1)) →
        ∃ t, exec (pushInstr withLr low) s = .next t ∧ WordsEffect (l.map fun x => (x.2, s.thumbReg x.1)) s t ∧
          t.thumbReg 13#4 = sp ∧ t.cpsr = s.cpsr ∧ t.pc = s.pc + 2#32 ∧ StoreFrame [13#4] (slotAddresses l) s t)) ∧
    ∀ rb : LowReg, if low = 0#8 then exec (.thumbStmia rb low) s = .refused .emptyRegisterList
      else if low.getLsbD rb.toNat = true ∧ (∃ k < rb.toNat, low.getLsbD k = true) then
        exec (.thumbStmia rb low) s = .refused .stmWritebackBaseNotFirst
      else ∀ l, l = wordSlots (s.low rb) (stackList low 15#4 false) →
        (StopsAtSram s l → exec (.thumbStmia rb low) s = .refused .sramWideAccess) ∧
        ((∀ x ∈ l, storeAdmitted s .word x.2 (s.thumbReg x.1)) →
        ∃ t, exec (.thumbStmia rb low) s = .next t ∧ WordsEffect (l.map fun x => (x.2, s.thumbReg x.1)) s t ∧
          t.low rb = s.low rb + BitVec.ofNat 32 (4 * l.length) ∧ t.cpsr = s.cpsr ∧ t.pc = s.pc + 2#32 ∧
          StoreFrame [lowReg rb] (slotAddresses l) s t)

/-- POP and LDMIA load the listed registers, lowest from the lowest address, and move the base, a listed base of LDMIA
keeping its loaded value; POP of r15 is a branch in Thumb state with bit 0 cleared; no register, and a word in cartridge
SRAM, are refused (46_thumb_mem_branch R659, R660, R662; 20_memory R168). -/
def Obligations.ThumbLoadMultiple : Prop :=
  ∀ (s : State) (low : BitVec 8),
    (∀ withPc, if low = 0#8 ∧ withPc = false then exec (popInstr withPc low) s = .refused .emptyRegisterList
      else ∀ l, l = wordSlots (s.thumbReg 13#4) (stackList low 15#4 withPc) →
        ((∃ x ∈ l, WideSram .word x.2) → exec (popInstr withPc low) s = .refused .sramWideAccess) ∧
        ((∀ x ∈ l, loadAdmitted .word x.2) →
        ∃ t, exec (popInstr withPc low) s = .next t ∧
          (∀ x ∈ l, if x.1 = 15#4 then t.pc = s.memRead .word x.2 &&& 0xFFFFFFFE#32
            else t.thumbReg x.1 = s.memRead .word x.2) ∧
          t.thumbReg 13#4 = s.thumbReg 13#4 + BitVec.ofNat 32 (4 * l.length) ∧ t.cpsr = s.cpsr ∧
          (withPc = false → t.pc = s.pc + 2#32) ∧ RegisterFrame (13#4 :: stackList low 15#4 withPc) s t)) ∧
    ∀ rb : LowReg, if low = 0#8 then exec (.thumbLdmia rb low) s = .refused .emptyRegisterList
      else ∀ l, l = wordSlots (s.low rb) (stackList low 15#4 false) →
        ((∃ x ∈ l, WideSram .word x.2) → exec (.thumbLdmia rb low) s = .refused .sramWideAccess) ∧
        ((∀ x ∈ l, loadAdmitted .word x.2) →
        ∃ t, exec (.thumbLdmia rb low) s = .next t ∧ (∀ x ∈ l, t.thumbReg x.1 = s.memRead .word x.2) ∧
          (low.getLsbD rb.toNat = false → t.low rb = s.low rb + BitVec.ofNat 32 (4 * l.length)) ∧ t.cpsr = s.cpsr ∧
          t.pc = s.pc + 2#32 ∧ RegisterFrame (lowReg rb :: stackList low 15#4 false) s t)

/-! ### Decoding (30_encoding) -/

/-- Decoding the bytes of an encoded well-formed instruction gives it back, every operand at every value, and leaves the
bytes that follow (30_encoding R252, R253, R291, R292; 20_memory R151). -/
def Obligations.DecodeOfEncode : Prop :=
  ∀ (i : Instr) (rest : List Byte), WellFormed i = true →
    decode (encode i).isThumb ((encode i).bytes ++ rest) = .ok (i, rest)

/-- Every word and every halfword is some well-formed instruction, whose encoding is that word or halfword: no two
encodings mean one instruction (30_encoding R252, R291). -/
def Obligations.EncodeOfDecode : Prop :=
  (∀ w : Word, WellFormed (decodeArm w) = true ∧ encode (decodeArm w) = .arm w) ∧
    ∀ h : Half, WellFormed (decodeThumb h) = true ∧ encode (decodeThumb h) = .thumb h

/-- Words written out from the encoding tables decode to the instructions they stand for (30_encoding R253, R292). -/
def Obligations.WrittenWordsDecode : Prop :=
  decodeArm 0xE0921003#32 = .armAdd .al true 2#4 1#4 (.shiftImm 0#5 .lsl 3#4) ∧
    decodeArm 0x13A0C4FF#32 = .armMov .ne false 0#4 12#4 (.imm 4#4 0xFF#8) ∧
    decodeArm 0xE129F000#32 = .armMsrReg .al false 9#4 15#4 0#4 0#4 ∧
    decodeArm 0xE0854392#32 = .armUmull .al false 5#4 4#4 3#4 2#4 ∧
    decodeArm 0xE1021093#32 = .armSwp .al 2#4 1#4 0#4 3#4 ∧
    decodeArm 0xE5B21004#32 = .armLdrImmPre .al true true 2#4 1#4 4#12 ∧
    decodeArm 0xE1D210F6#32 = .armLdrshImm .al true true false 2#4 1#4 0#4 6#4 ∧
    decodeArm 0xE92D4003#32 = .armStm .al true false true 13#4 0x4003#16 ∧
    decodeArm 0xEBFFFFFE#32 = .armBl .al 0xFFFFFE#24 ∧
    decodeArm 0xE12FFF1E#32 = .armBx .al 0xFFF#12 14#4 ∧
    decodeArm 0xEF00000B#32 = .armSwi .al 11#24 ∧
    decodeThumb 0x0088#16 = .thumbLslImm 2#5 1#3 0#3 ∧
    decodeThumb 0x4348#16 = .thumbMul 1#3 0#3 ∧
    decodeThumb 0x4687#16 = .thumbMovHi 0#4 15#4 ∧
    decodeThumb 0x8848#16 = .thumbLdrhImm 1#5 1#3 0#3 ∧
    decodeThumb 0xB510#16 = .thumbPushLr 0x10#8 ∧
    decodeThumb 0xD1FE#16 = .thumbBne 0xFE#8

/-! ### The step (60_exceptions R870; 10_state R67; 20_memory R157, R158) -/

namespace Sys2Proof.Statements

/-- The bytes at the PC, aligned for the processor state (20_memory R157). -/
def codeAt (u : State) : List Byte :=
  if u.cpsr.t then (byteSpan .half (u.pc &&& 0xFFFFFFFE#32)).map u.readByte
  else (byteSpan .word (u.pc &&& 0xFFFFFFFC#32)).map u.readByte

/-- A fetch is admitted: BIOS, EWRAM, IWRAM or cartridge ROM with its mirrors (20_memory R152, R158). -/
def Fetchable (a : Word) : Prop :=
  a.toNat < 0x4000 ∨ 0x02000000 ≤ a.toNat ∧ a.toNat < 0x04000000 ∨ 0x08000000 ≤ a.toNat ∧ a.toNat < 0x0E000000

/-- The fetched bytes of a CPU turn are the instruction `i`: no IRQ is taken, the fetch is admitted and the bytes decode
to `i`. -/
def Fetches (s u : State) (i : Instr) : Prop :=
  CpuTurn s u ∧ ¬ IrqWanted u ∧ Fetchable u.pc ∧ decode u.cpsr.t (codeAt u.tick) = .ok (i, [])

/-- Under the user-bank hazard, an instruction that passes its condition and accesses r13 or r14 of a privileged mode, or
r8 to r14 of FIQ mode (70_reset_and_hazards R942). -/
def HazardMet (u : State) (i : Instr) : Prop :=
  u.userBankHazard = true ∧ condPassed (condOf i) u.cpsr = true ∧ ∃ r ∈ accessedRegs i,
    u.cpsr.mode ≠ .user ∧ r ≠ 15#4 ∧ (if u.cpsr.mode = .fiq then 8 ≤ r.toNat else 13 ≤ r.toNat)

end Sys2Proof.Statements

/-- When the bytes at the PC decode to `i` and the hazard is not met, the step is `i` on the state with the hazard
cleared, the cycles counted and the draws moved on (60_exceptions R870; 10_state R67; 70_reset_and_hazards R942, R951).
How many draws a fetch takes, what the cycles are, which registers an instruction accesses under the hazard, a skipped
one none, and how a turn meets the scanline are the model's choice (log 6, log 7, log 15, log 8). -/
def Obligations.StepRunsDecoded : Prop :=
  ∀ (s u : State) (i : Instr), Fetches s u i → ¬ HazardMet u i →
    step s = exec i { u with cycles := u.cycles + instrCycles i u.tick, userBankHazard := false, draws := u.draws + 2 }

/-- A CPU step stops before it executes in two cases: a fetch outside the executable regions is a fault, and a banked
register accessed right after a user-bank LDM is refused (20_memory R158; 70_reset_and_hazards R942). Which registers an
instruction accesses, a skipped one none, and that this refusal comes before every other are the model's choice (log 15,
log 14). -/
def Obligations.StepStops : Prop :=
  (∀ s u, CpuTurn s u → ¬ IrqWanted u → ¬ Fetchable u.pc → step s = .fault .fetchFromUnexecutableRegion) ∧
    ∀ s u i, Fetches s u i → HazardMet u i → step s = .refused .bankedAccessAfterUserLdm

namespace Sys2Proof.Statements

/-- The registers `i` accesses under the hazard are those of `l`, and no other. -/
def Accesses (i : Instr) (l : List RegNum) : Prop := ∀ q : RegNum, q ∈ accessedRegs i ↔ q ∈ l

/-- The registers a second operand names. -/
def operandNames : Operand2 → List RegNum
  | .imm _ _ => []
  | .shiftImm _ _ rm => [rm]
  | .shiftReg rs _ rm => [rm, rs]

/-- The registers the offset of a word or byte transfer names. -/
def offset12Names : Offset12 → List RegNum
  | .imm _ => []
  | .reg _ _ rm => [rm]

/-- The registers of a list of bits. -/
def bitNames (rlist : BitVec 16) (q : RegNum) : Prop := rlist.getLsbD q.toNat = true

/-- The low registers of a list of bits. -/
def lowNames (rlist : BitVec 8) (q : RegNum) : Prop := rlist.getLsbD q.toNat = true

/-- The ARM instructions whose fields name their registers one by one, with those registers (R942; log 15). -/
def ArmAccesses (c : Cond) : Prop :=
  (∀ mk ∈ [Instr.armAnd, Instr.armEor, Instr.armSub, Instr.armRsb, Instr.armAdd, Instr.armAdc, Instr.armSbc, Instr.armRsc,
      Instr.armOrr, Instr.armBic], ∀ setFlags rn rd op2, Accesses (mk c setFlags rn rd op2) (rn :: rd :: operandNames op2)) ∧
    (∀ mk ∈ [Instr.armMov, Instr.armMvn], ∀ setFlags rn rd op2,
      Accesses (mk c setFlags rn rd op2) (rd :: operandNames op2)) ∧
    (∀ mk ∈ dpTests, ∀ rn rd op2, Accesses (mk c rn rd op2) (rn :: operandNames op2)) ∧
    (∀ spsr sbo rd high low, Accesses (.armMrs c spsr sbo rd high low) [rd]) ∧
    (∀ spsr mask sbo sbz rm, Accesses (.armMsrReg c spsr mask sbo sbz rm) [rm]) ∧
    (∀ spsr mask sbo rot imm8, Accesses (.armMsrImm c spsr mask sbo rot imm8) []) ∧
    (∀ setFlags rd sbz rs rm, Accesses (.armMul c setFlags rd sbz rs rm) [rd, rs, rm]) ∧
    (∀ mk ∈ [Instr.armMla, Instr.armUmull, Instr.armUmlal, Instr.armSmull, Instr.armSmlal], ∀ setFlags a b rs rm,
      Accesses (mk c setFlags a b rs rm) [a, b, rs, rm]) ∧
    (∀ mk ∈ [Instr.armSwp, Instr.armSwpb], ∀ rn rd sbz rm, Accesses (mk c rn rd sbz rm) [rn, rd, rm]) ∧
    (∀ load byte x rn rd o, Accesses (transferInstr load byte c x rn rd o) (rn :: rd :: offset12Names o)) ∧
    (∀ mk ∈ [Instr.armStrhReg, Instr.armLdrhReg, Instr.armLdrsbReg, Instr.armLdrshReg], ∀ p u w rn rd sbz rm,
      Accesses (mk c p u w rn rd sbz rm) [rn, rd, rm]) ∧
    (∀ mk ∈ [Instr.armStrhImm, Instr.armLdrhImm, Instr.armLdrsbImm, Instr.armLdrshImm], ∀ p u w rn rd immH immL,
      Accesses (mk c p u w rn rd immH immL) [rn, rd]) ∧
    (∀ puiw mid sh0 low, Accesses (.armStrhDspace c puiw mid sh0 low) []) ∧
    (∀ mk ∈ [Instr.armStm, Instr.armLdm], ∀ p u w rn rlist q,
      q ∈ accessedRegs (mk c p u w rn rlist) ↔ q = rn ∨ bitNames rlist q) ∧
    (∀ p u w rn rlist, Accesses (.armStmUser c p u w rn rlist) [rn]) ∧
    (∀ p u w rn rlist q, q ∈ accessedRegs (.armLdmUser c p u w rn rlist) ↔
      q = rn ∨ bitNames rlist 15#4 ∧ bitNames rlist q) ∧
    (∀ off24, Accesses (.armB c off24) [] ∧ Accesses (.armBl c off24) [14#4] ∧ Accesses (.armSwi c off24) []) ∧
    (∀ sbo rm, Accesses (.armBx c sbo rm) [rm]) ∧
    ∀ i, ArmUndefined c i → Accesses i []

/-- The same for the Thumb instructions; SP and LR count where an instruction uses them without naming them. -/
def ThumbAccesses : Prop :=
  (∀ mk ∈ [Instr.thumbLslImm, Instr.thumbLsrImm, Instr.thumbAsrImm, Instr.thumbStrImm, Instr.thumbLdrImm,
      Instr.thumbStrbImm, Instr.thumbLdrbImm, Instr.thumbStrhImm, Instr.thumbLdrhImm], ∀ off5 a b,
      Accesses (mk off5 a b) [lowReg a, lowReg b]) ∧
    (∀ mk ∈ [Instr.thumbAddImm3, Instr.thumbSubImm3], ∀ off3 rs rd, Accesses (mk off3 rs rd) [lowReg rs, lowReg rd]) ∧
    (∀ mk ∈ [Instr.thumbAddReg, Instr.thumbSubReg, Instr.thumbStrReg, Instr.thumbStrhReg, Instr.thumbStrbReg,
      Instr.thumbLdsbReg, Instr.thumbLdrReg, Instr.thumbLdrhReg, Instr.thumbLdrbReg, Instr.thumbLdshReg], ∀ a b rd,
      Accesses (mk a b rd) [lowReg a, lowReg b, lowReg rd]) ∧
    (∀ mk ∈ [Instr.thumbMovImm, Instr.thumbCmpImm, Instr.thumbAddImm8, Instr.thumbSubImm8, Instr.thumbLdrPc,
      Instr.thumbAddPc], ∀ rd imm8, Accesses (mk rd imm8) [lowReg rd]) ∧
    (∀ mk ∈ [Instr.thumbStrSp, Instr.thumbLdrSp, Instr.thumbAddSp], ∀ rd word8,
      Accesses (mk rd word8) [lowReg rd, 13#4]) ∧
    (∀ mk ∈ [Instr.thumbAnd, Instr.thumbEor, Instr.thumbLslReg, Instr.thumbLsrReg, Instr.thumbAsrReg, Instr.thumbAdc,
      Instr.thumbSbc, Instr.thumbRorReg, Instr.thumbTst, Instr.thumbNeg, Instr.thumbCmpReg, Instr.thumbCmn,
      Instr.thumbOrr, Instr.thumbMul, Instr.thumbBic, Instr.thumbMvn], ∀ rs rd,
      Accesses (mk rs rd) [lowReg rs, lowReg rd]) ∧
    (∀ mk ∈ [Instr.thumbAddHi, Instr.thumbCmpHi, Instr.thumbMovHi], ∀ r d, Accesses (mk r d) [r, d]) ∧
    (∀ h1 r sbz, Accesses (.thumbBx h1 r sbz) [r]) ∧
    (∀ sword7, Accesses (.thumbAddSpImm sword7) [13#4] ∧ Accesses (.thumbSubSpImm sword7) [13#4]) ∧
    (∀ low q, (q ∈ accessedRegs (.thumbPush low) ↔ q = 13#4 ∨ lowNames low q) ∧
      (q ∈ accessedRegs (.thumbPushLr low) ↔ q = 13#4 ∨ q = 14#4 ∨ lowNames low q) ∧
      (q ∈ accessedRegs (.thumbPop low) ↔ q = 13#4 ∨ lowNames low q) ∧
      (q ∈ accessedRegs (.thumbPopPc low) ↔ q = 13#4 ∨ lowNames low q)) ∧
    (∀ mk ∈ [Instr.thumbStmia, Instr.thumbLdmia], ∀ rb low q,
      q ∈ accessedRegs (mk rb low) ↔ q = lowReg rb ∨ lowNames low q) ∧
    (∀ x ∈ thumbConditionals, ∀ soff8, Accesses (x.2 soff8) []) ∧
    (∀ off11, Accesses (.thumbB off11) [] ∧ Accesses (.thumbBlHi off11) [14#4] ∧ Accesses (.thumbBlLo off11) [14#4]) ∧
    (∀ value8, Accesses (.thumbSwi value8) []) ∧ ∀ i, ThumbUndefined i → Accesses i []

end Sys2Proof.Statements

/-- The registers an instruction accesses under the user-bank hazard, for every instruction: those its fields name as
operands or destinations, and SP and LR where it uses them implicitly; the User registers of a user-bank transfer, fixed
fields, and the LR of an exception entry are not among them. This reading of 70_reset_and_hazards R942 is the model's
choice (log 15). -/
def Obligations.AccessedRegisters : Prop := (∀ c : Cond, ArmAccesses c) ∧ ThumbAccesses

/-! ### The invariant -/

/-- Every step, whichever agent moves, keeps the invariant: memory in canonical form, PC aligned for the state, reserved
SPSR bits 0, no I/O bit its register does not have, VCOUNT a line, unused metadata bits 0, and no line rendered but a
visible one (10_state R57, R60, R70; 20_memory R186, R188; 70_reset_and_hazards R950). The canonical form of memory, the
frame driver's line and phase, and what a reset turn leaves in the SPSRs and the metadata are the model's choice (log 4,
log 8, log 1, log 11, log 12). -/
def Obligations.StepKeepsInvariant : Prop := ∀ s t : State, s.Inv → step s = .next t → t.Inv

/-- The state after reset has the invariant. PC 0 and the core's I/O granules 0 are the spec's reset values (10_state R73,
20_memory R199). The other clauses rest on values the model chose, since those rules leave them open: the form of memory
(log 4), the SPSRs 0 (log 1), VCOUNT, KEYINPUT and the DISPSTAT flags, which are the environment's (log 10), the metadata
0 (log 11), the frame driver within the budget of line 0 (log 8). -/
def Obligations.ResetHasInvariant : Prop := State.reset.Inv

/-! ### Privilege (60_exceptions R885, R886) -/

namespace Sys2Proof.Statements

/-- The registers User mode cannot name: the FIQ registers and the r13 and r14 of the exception modes (10_state R52). -/
def userCannotName (q : PhysReg) : Prop := ∀ j : RegNum, physReg .user j ≠ some q

end Sys2Proof.Statements

/-- A step that leaves User mode is an exception entry or a reset: its mode, its vector, I set and T clear. A step that
stays in User mode changes neither I nor an SPSR nor a register User mode cannot name (60_exceptions R872, R885; 10_state
R52). -/
def Obligations.UserMode : Prop :=
  ∀ s t : State, s.cpsr.mode = .user → step s = .next t →
    (t.cpsr.mode ≠ .user → t.cpsr.i = true ∧ t.cpsr.t = false ∧
      (t.cpsr.mode = .svc ∧ t.pc = 0x08#32 ∨ t.cpsr.mode = .und ∧ t.pc = 0x04#32 ∨ t.cpsr.mode = .irq ∧ t.pc = 0x18#32 ∨
        t.cpsr.mode = .svc ∧ t.pc = 0x00#32 ∧ ∃ rest, s.schedule = .env .reset :: rest)) ∧
    (t.cpsr.mode = .user → t.cpsr.i = s.cpsr.i ∧ t.spsrs = s.spsrs ∧ ∀ q, userCannotName q → t.reg q = s.reg q)

/-! ### Reset (10_state R73; 70_reset_and_hazards R920, R921) -/

/-- What reset leaves, on the first reset and on each reset the environment asserts: Supervisor mode with I set and T
clear, PC 0, no hazard, cycles 0, the I/O granules and reference registers 0 (VCOUNT and KEYINPUT are the environment's);
the partly elapsed scanline is discarded; a later reset keeps the images and forgets every written RAM byte. That the
frame driver is then at line 0, that the DISPSTAT flags, bits 2..0, which are the environment's, are 0, and what becomes
of the environment's registers, its events and the schedule at a later reset, is the model's choice (log 8, log 10, log 12). -/
def Obligations.ResetValues : Prop :=
  (∀ t, (t = State.reset ∨ ∃ s rest, s.schedule = .env .reset :: rest ∧ step s = .next t) →
    t.cpsr.mode = .svc ∧ t.cpsr.i = true ∧ t.cpsr.t = false ∧ t.cpsr.toWord.getLsbD 6 = true ∧ t.pc = 0#32 ∧
      t.cycles = 0 ∧ t.userBankHazard = false ∧ t.line = 0 ∧ t.phase = .budget ∧ t.bg2xInt = 0#28 ∧
      t.bg2yInt = 0#28 ∧ t.bg3xInt = 0#28 ∧ t.bg3yInt = 0#28 ∧ ∀ r : IoReg, r ≠ .vcount → r ≠ .keyinput → t.ioRaw r = 0#16) ∧
  ∀ s rest, s.schedule = .env .reset :: rest →
    ∃ t, step s = .next t ∧ t.schedule = rest ∧ t.envEvents = s.envEvents ∧ t.ioRaw .vcount = s.ioRaw .vcount ∧
      t.ioRaw .keyinput = s.ioRaw .keyinput ∧
      (s.Inv → ∀ k, Memory.get? t.mem k =
        if k < 0x4000 ∨ 0x08000000 ≤ k ∧ k < 0x0A000000 then Memory.get? s.mem k else none)

/-! ### Memory and the I/O page (20_memory) -/

/-- Mirrors and byte order: EWRAM, IWRAM, palette RAM, VRAM, OAM, cartridge ROM and SRAM repeat within their windows, a
halfword and a word are little-endian at the aligned address (20_memory R151, R153, R161, R162, R164 to R168). Past
ROM_SIZE, and where nothing is stored, a byte is a draw: that the bytes of one read share one draw counter, and that ROM
mirrors draw by the storage byte, is the model's choice (log 4, log 6). -/
def Obligations.MemoryMirrors : Prop :=
  ∀ s : State,
    (∀ (a b : Word) (base window size : Nat),
      (base, window, size) ∈ [(0x02000000, 0x01000000, 0x40000), (0x03000000, 0x01000000, 0x8000),
        (0x05000000, 0x01000000, 0x400), (0x06000000, 0x01000000, 0x20000), (0x07000000, 0x01000000, 0x400),
        (0x08000000, 0x06000000, 0x02000000), (0x0E000000, 0x02000000, 0x10000)] →
      base ≤ a.toNat → a.toNat < base + window → base ≤ b.toNat → b.toNat < base + window →
      a.toNat % size = b.toNat % size → s.readByte a = s.readByte b) ∧
    (∀ a : Word, 0x06000000 ≤ a.toNat → a.toNat < 0x07000000 → 0x18000 ≤ a.toNat % 0x20000 →
      s.readByte a = s.readByte (a - 0x8000#32)) ∧
    ∀ a : Word,
      s.memRead .byte a = (s.readByte a).setWidth 32 ∧
      s.memRead .half a = BitVec.ofNat 32 ((s.readByte (a &&& 0xFFFFFFFE#32)).toNat +
        256 * (s.readByte ((a &&& 0xFFFFFFFE#32) + 1#32)).toNat) ∧
      s.memRead .word a = BitVec.ofNat 32 ((s.readByte (a &&& 0xFFFFFFFC#32)).toNat +
        256 * (s.readByte ((a &&& 0xFFFFFFFC#32) + 1#32)).toNat +
        65536 * (s.readByte ((a &&& 0xFFFFFFFC#32) + 2#32)).toNat +
        16777216 * (s.readByte ((a &&& 0xFFFFFFFC#32) + 3#32)).toNat)

namespace Sys2Proof.Statements

/-- The address of an offset of the I/O page (20_memory R163). -/
def ioAddress (o : Nat) : Word := BitVec.ofNat 32 (0x04000000 + o)

/-- What a halfword written to a granule makes of its stored value: IF loses the bits written as 1, the others take their
writable bits (20_memory R186, R190). -/
def granuleAfter (r : IoReg) (old v : Half) : Half :=
  if r = .if_ then old &&& ~~~(v &&& 0x3FFF#16) else (old &&& ~~~r.writeMask) ||| (v &&& r.writeMask)

/-- A write to a granule of a reference register leaves the whole stored value in its internal register; the other
internal registers are as in `s` (20_memory R192). -/
def ReferencesReloaded (r : IoReg) (s t : State) : Prop :=
  t.bg2xInt = (if r = .bg2xl ∨ r = .bg2xh then (t.ioRaw .bg2xh).extractLsb' 0 12 ++ t.ioRaw .bg2xl else s.bg2xInt) ∧
  t.bg2yInt = (if r = .bg2yl ∨ r = .bg2yh then (t.ioRaw .bg2yh).extractLsb' 0 12 ++ t.ioRaw .bg2yl else s.bg2yInt) ∧
  t.bg3xInt = (if r = .bg3xl ∨ r = .bg3xh then (t.ioRaw .bg3xh).extractLsb' 0 12 ++ t.ioRaw .bg3xl else s.bg3xInt) ∧
  t.bg3yInt = (if r = .bg3yl ∨ r = .bg3yh then (t.ioRaw .bg3yh).extractLsb' 0 12 ++ t.ioRaw .bg3yl else s.bg3yInt)

/-- A halfword with byte `k` replaced by the low byte of `v` (`merge` of 20_memory R185). -/
def mergedHalf (old : Nat) (v : Word) (k : Nat) : Nat :=
  if k = 0 then old / 256 * 256 + v.toNat % 256 else old % 256 + 256 * (v.toNat % 256)

end Sys2Proof.Statements

/-- The I/O page. A halfword written: a core granule takes its writable bits, IF is write-1-to-clear, the reference
registers reload, a register of the environment sends it an event, an unused offset discards it. A word is its low
halfword, then its high one; a byte is its granule's halfword with that byte replaced, the other byte of IF written as 0.
A halfword read gives a core granule's readable bits; a byte and a word read are parts and pairs of those (20_memory R185,
R186, R190, R192, R196, R198). The list of events, and the drawn halfword a byte sent to the environment is merged into,
are the model's choice (log 9). -/
def Obligations.IoPage : Prop :=
  ∀ (s : State) (v : Word),
    (∀ r : IoReg, ∃ t, s.memWrite .half (ioAddress r.offset) v = t ∧
      t.ioRaw r = granuleAfter r (s.ioRaw r) (v.setWidth 16) ∧ (∀ q, q ≠ r → t.ioRaw q = s.ioRaw q) ∧
      ReferencesReloaded r s t ∧ t.envEvents = s.envEvents ∧ t.mem = s.mem ∧ t.regs = s.regs ∧
      s.memRead .half (ioAddress r.offset) = (s.ioRaw r &&& r.readMask).setWidth 32) ∧
    (∀ r : IoReg, ∀ k < 2, s.memWrite .byte (ioAddress (r.offset + k)) v =
      s.memWrite .half (ioAddress r.offset) (BitVec.ofNat 32
        (if r = .if_ then mergedHalf 0 v k else mergedHalf (s.ioRaw r).toNat v k))) ∧
    (∀ o : Nat, o % 2 = 0 → o < 0x400 → environmentOwned o = true →
      s.memWrite .half (ioAddress o) v = { s with envEvents := s.envEvents ++ [(o, v.setWidth 16)] } ∧
      ∀ k < 2, ∃ old, s.memWrite .byte (ioAddress (o + k)) v =
        { s with envEvents := s.envEvents ++ [(o, BitVec.ofNat 16 (mergedHalf old v k))] }) ∧
    (∀ o : Nat, o % 2 = 0 → o < 0x400 → environmentOwned o = false → (∀ r : IoReg, r.offset ≠ o) →
      s.memWrite .half (ioAddress o) v = s ∧ ∀ k < 2, s.memWrite .byte (ioAddress (o + k)) v = s) ∧
    (∀ o : Nat, o % 2 = 0 → o < 0x400 → ∀ k < 2, s.memRead .byte (ioAddress (o + k)) =
      BitVec.ofNat 32 ((s.memRead .half (ioAddress o)).toNat / 256 ^ k % 256)) ∧
    ∀ o : Nat, o % 4 = 0 → o < 0x400 →
      s.memWrite .word (ioAddress o) v =
        (s.memWrite .half (ioAddress o) v).memWrite .half (ioAddress (o + 2)) (v >>> 16) ∧
      s.memRead .word (ioAddress o) = BitVec.ofNat 32
        ((s.memRead .half (ioAddress o)).toNat + 65536 * (s.memRead .half (ioAddress (o + 2))).toNat)

/-- A store into the two instruction slots after the executing one is refused: STR, STRB, their T forms, STRH, SWP, SWPB,
STM in both forms, the Thumb single stores, PUSH and STMIA, each with legal operands (70_reset_and_hazards R941). Which
stores meet the window, under every mirror and in the whole I/O page, is the model's choice (log 13); a block store names
the first word that is refused (log 14). -/
def Obligations.PrefetchWindow : Prop :=
  (∀ (thumb : Bool) (start : Word) (w : Width) (a v : Word), hitsWindow thumb start w a v = true ↔
    StoresInto thumb start w a) ∧
  (∀ (c : Cond) (s : State), condPassed c s.cpsr = true →
    (∀ x rn rd o, transferAdmitted x rn rd o false →
      (¬ WideSram .word (transferAddress x rn o s) → MeetsWindow s .word (transferAddress x rn o s) →
        exec (transferInstr false false c x rn rd o) s = .refused .prefetchWindowWrite) ∧
      (rd ≠ 15#4 → MeetsWindow s .byte (transferAddress x rn o s) →
        exec (transferInstr false true c x rn rd o) s = .refused .prefetchWindowWrite)) ∧
    (∀ x rn rd o, halfwordAdmitted x rn rd o false → (halfwordAddress x rn o s).toNat % 2 = 0 →
      ¬ WideSram .half (halfwordAddress x rn o s) → MeetsWindow s .half (halfwordAddress x rn o s) →
      exec (strh c x rn rd o) s = .refused .prefetchWindowWrite) ∧
    (∀ rn rd rm, ¬ (rd = 15#4 ∨ rn = 15#4 ∨ rm = 15#4 ∨ rn = rm ∨ rn = rd) →
      (¬ WideSram .word (s.armReg rn) → MeetsWindow s .word (s.armReg rn) →
        exec (.armSwp c rn rd 0#4 rm) s = .refused .prefetchWindowWrite) ∧
      (MeetsWindow s .byte (s.armReg rn) → exec (.armSwpb c rn rd 0#4 rm) s = .refused .prefetchWindowWrite)) ∧
    ∀ p u w rn rlist, rlist ≠ 0#16 → rn ≠ 15#4 → StopsAtWindow s (slotsOf p u rn rlist s) →
      (listedBaseFirst w rn rlist → exec (.armStm c p u w rn rlist) s = .refused .prefetchWindowWrite) ∧
      (w = false → s.cpsr.mode ≠ .user → s.cpsr.mode ≠ .sys →
        exec (.armStmUser c p u w rn rlist) s = .refused .prefetchWindowWrite)) ∧
  ∀ s : State,
    (∀ rd i w a, ThumbStoreForm s rd i w a → (w = .half → a.toNat % 2 = 0) → ¬ WideSram w a → MeetsWindow s w a →
      exec i s = .refused .prefetchWindowWrite) ∧
    (∀ low withLr, ¬ (low = 0#8 ∧ withLr = false) →
      StopsAtWindow s (wordSlots (s.thumbReg 13#4 - BitVec.ofNat 32 (4 * (stackList low 14#4 withLr).length))
        (stackList low 14#4 withLr)) →
      exec (pushInstr withLr low) s = .refused .prefetchWindowWrite) ∧
    ∀ low (rb : LowReg), low ≠ 0#8 → ¬ (low.getLsbD rb.toNat = true ∧ ∃ k < rb.toNat, low.getLsbD k = true) →
      StopsAtWindow s (wordSlots (s.low rb) (stackList low 15#4 false)) →
      exec (.thumbStmia rb low) s = .refused .prefetchWindowWrite

/-! ### The environment and the frame driver (00_scope R6, R7; 70_reset_and_hazards R950) -/

namespace Sys2Proof.Statements

/-- `s` with the turn of an environment action taken, `rest` to come: a budget that has begun is marked, and a draw is
taken (log 8, log 6). -/
def actedTurn (s : State) (rest : List Turn) : State :=
  { s with schedule := rest, phase := if s.phase = .budget then .acted else s.phase, draws := s.draws + 1 }

/-- A turn of the environment that leaves one granule at a value and everything else alone. -/
def SetsGranule (a : EnvAction) (r : IoReg) (v : State → Half) : Prop :=
  ∀ s rest, s.schedule = .env a :: rest →
    ∃ t, step s = .next t ∧ t.ioRaw r = v s ∧ (∀ q, q ≠ r → t.ioRaw q = s.ioRaw q) ∧
      t = { actedTurn s rest with io := t.io }

/-- The cycles of one memory access, and the draw it takes (10_state R69, 70_reset_and_hazards R951; log 7). -/
def accessCounted (s : State) : State :=
  { s with cycles := s.cycles + Config.cycleCost .memoryAccess s.draws, draws := s.draws + 1 }

/-- What one access of a DMA transfer does: a read changes nothing, a write is the bus write; each counts its cycles. -/
def dmaEffect (s : State) : DmaOp → State
  | .read _ _ => accessCounted s
  | .write w a v => accessCounted (s.memWrite w a v)

/-- An access of a DMA transfer that neither rule refuses: no 16-bit or 32-bit access to cartridge SRAM, no write into the
next two instructions (20_memory R168, 70_reset_and_hazards R941). -/
def DmaAdmitted (s : State) : DmaOp → Prop
  | .read w a => ¬ WideSram w a
  | .write w a _ => ¬ WideSram w a ∧ ¬ StoresInto s.cpsr.t s.pc w a

/-- A state that a DMA transfer may leave: all but memory, the I/O page and what counts the accesses is as before. -/
structure KeptByDma (s t : State) : Prop where
  regs : t.regs = s.regs
  cpsr : t.cpsr = s.cpsr
  spsrs : t.spsrs = s.spsrs
  pc : t.pc = s.pc
  userBankHazard : t.userBankHazard = s.userBankHazard
  bgLine : t.bgLine = s.bgLine
  bgPresent : t.bgPresent = s.bgPresent
  objLine : t.objLine = s.objLine
  objMeta : t.objMeta = s.objMeta
  frame : t.frame = s.frame
  line : t.line = s.line
  phase : t.phase = s.phase
  schedule : t.schedule = s.schedule
  powerOns : t.powerOns = s.powerOns
  cycles : s.cycles ≤ t.cycles

end Sys2Proof.Statements

/-- What the environment may do between CPU steps: OR bits into IF, move VCOUNT, set the DISPSTAT flags, set KEYINPUT; a
DMA transfer of any list of accesses is those accesses in order, each a bus read that changes nothing or a bus write, and
a 16-bit or 32-bit access to cartridge SRAM or a write into the next two instructions refuses the turn (00_scope R7;
10_state R69; 20_memory R154, R168, R174, R188, R190; 70_reset_and_hazards R941). That these are turns of a schedule that
mark the scanline, the draws and the cycles a turn takes, and that a transfer is one turn, named after its first refused
access, is the model's choice (log 6, log 7, log 8, log 14, log 21). -/
def Obligations.EnvironmentTurns : Prop :=
  (∀ bits, SetsGranule (.requestIrq bits) .if_ fun s => s.ioRaw .if_ ||| (bits &&& 0x3FFF#16)) ∧
    (∀ line, SetsGranule (.setVcount line) .vcount fun _ => BitVec.ofNat 16 line.val) ∧
    (∀ vb hb vc, SetsGranule (.setDispstatFlags vb hb vc) .dispstat fun s =>
      (s.ioRaw .dispstat &&& 0xFFF8#16) ||| BitVec.ofNat 16 (vb.toNat + 2 * hb.toNat + 4 * vc.toNat)) ∧
    (∀ keys, SetsGranule (.setKeyinput keys) .keyinput fun _ => keys &&& 0x03FF#16) ∧
    (∀ (s : State) (ops : List DmaOp) (rest : List Turn), s.schedule = .env (.dma ops) :: rest →
      ((∀ op ∈ ops, DmaAdmitted s op) →
        ∃ t, step s = .next t ∧ t = ops.foldl dmaEffect (actedTurn s rest) ∧ KeptByDma (actedTurn s rest) t ∧
          t.draws = s.draws + 1 + ops.length) ∧
      ∀ pre op post, ops = pre ++ op :: post → (∀ q ∈ pre, DmaAdmitted s q) →
        (∀ w a, WideSram w a → (op = .read w a ∨ ∃ v, op = .write w a v) → step s = .refused .sramWideAccess) ∧
        ∀ w a v, op = .write w a v → ¬ WideSram w a → StoresInto s.cpsr.t s.pc w a →
          step s = .refused .prefetchWindowWrite) ∧
    ∀ (s t : State) (w : Width) (a v : Word), ¬ WideSram w a → t = s.memWrite w a v →
      StoreEffect w a v s t ∧ KeepsMemoryBut (storedAddresses w a) s t ∧ KeepsAllButStore s t ∧ t.regs = s.regs ∧
        t.cpsr = s.cpsr ∧ t.pc = s.pc

/-- The order within a scanline: CPU steps, then one render of a visible line, once and only at its own line, then the
environment's effects; 228 lines follow one another, and no visible line is left before it is rendered
(70_reset_and_hazards R950; 00_scope R6, R7). That a CPU step after a render opens the next line, that the environment may
also act between the CPU steps of a budget but not between its last step and the render, and the turn that ends a line,
are the model's choice (log 8). -/
def Obligations.FrameOrder : Prop :=
  ∀ s : State,
    (∀ y rest, s.schedule = .render y :: rest →
      (s.line.val = y.val ∧ s.phase = .budget ∨ step s = .refused .frameOrder) ∧
      ∀ t, step s = .next t → t.schedule = rest ∧ t.line = s.line ∧ t.phase = .effects) ∧
    (∀ a rest t, s.schedule = .env a :: rest → a ≠ .reset → step s = .next t →
      t.schedule = rest ∧ t.line = s.line ∧ t.phase = (if s.phase = .budget then .acted else s.phase)) ∧
    (∀ u t, CpuTurn s u → step s = .next t → t.schedule = u.schedule ∧ t.phase = .budget ∧
      t.line.val = (if s.phase = .effects then (s.line.val + 1) % 228 else s.line.val)) ∧
    (∀ rest, s.schedule = .endLine :: rest →
      (s.line.val < 160 → s.phase ≠ .effects → step s = .refused .frameOrder) ∧
      (160 ≤ s.line.val ∨ s.phase = .effects →
        ∃ t, step s = .next t ∧ t.line.val = (s.line.val + 1) % 228 ∧
          t = { s with schedule := rest, line := t.line, phase := .budget })) ∧
    ∀ t, step s = .next t → t.line ≠ s.line →
      (∃ rest, s.schedule = .env .reset :: rest) ∨
        t.line.val = (s.line.val + 1) % 228 ∧ t.phase = .budget ∧ (s.line.val < 160 → s.phase = .effects)

/-! ### The renderer (47_compositor, 48_bg_producers, 49_sprite_producer) -/

namespace Sys2Proof.Statements

/-- Bits `lo` to `lo + len - 1` of a number. -/
def field (n lo len : Nat) : Nat := n / 2 ^ lo % 2 ^ len

/-- The stored value of a granule, as a number. -/
def ioValue (s : State) (r : IoReg) : Nat := (s.ioRaw r).toNat

/-- The halfword on the bus at an offset from a base, as a number. -/
def halfAt (s : State) (base o : Nat) : Nat := (s.memRead .half (BitVec.ofNat 32 (base + o))).toNat

/-- A 16-bit number read as signed. -/
def signed16 (n : Nat) : Int := if n < 0x8000 then n else (n : Int) - 0x10000

/-- Halfword `k` of OAM entry `i`: attr0, attr1 and attr2 (49_sprite_producer R821). -/
def attr (s : State) (i k : Nat) : Nat := halfAt s 0x07000000 (8 * i + 2 * k)

/-- A sprite is displayed: AFFINE, or not DISABLE (49_sprite_producer R822, R824). -/
def SpriteShown (s : State) (i : Nat) : Prop := field (attr s i 0) 8 1 = 1 ∨ field (attr s i 0) 9 1 = 0

/-- Width and height by SHAPE and SIZE (49_sprite_producer R823). -/
def spriteSize (shape size : Nat) : Nat × Nat :=
  match shape, size with
  | 0, 0 => (8, 8) | 0, 1 => (16, 16) | 0, 2 => (32, 32) | 0, 3 => (64, 64)
  | 1, 0 => (16, 8) | 1, 1 => (32, 8) | 1, 2 => (32, 16) | 1, 3 => (64, 32)
  | 2, 0 => (8, 16) | 2, 1 => (8, 32) | 2, 2 => (16, 32) | 2, 3 => (32, 64)
  | _, _ => (0, 0)

/-- Width and height of OAM entry `i`. -/
def sizeOf (s : State) (i : Nat) : Nat × Nat := spriteSize (field (attr s i 0) 14 2) (field (attr s i 1) 14 2)

/-- How often the bounding box holds the sprite's width and height: twice for AFFINE with DOUBLE
(49_sprite_producer R824). -/
def boxScale (s : State) (i : Nat) : Nat := if field (attr s i 0) 8 1 = 1 ∧ field (attr s i 0) 9 1 = 1 then 2 else 1

/-- The row of the bounding box on line y (49_sprite_producer R824). -/
def boxRow (s : State) (i y : Nat) : Nat := (y + 256 - field (attr s i 0) 0 8) % 256

/-- Line y is in the sprite's Y-range (49_sprite_producer R824). -/
def SpriteCovers (s : State) (i y : Nat) : Prop := boxRow s i y < boxScale s i * (sizeOf s i).2

/-- A sprite a renderer step of line y refuses: displayed with SHAPE 3, or MODE 3 with the line in its Y-range; one with
SHAPE 3 that is not displayed has no size and so no Y-range (49_sprite_producer R823; log 19). -/
def SpriteProhibited (s : State) (i y : Nat) : Prop :=
  SpriteShown s i ∧ field (attr s i 0) 14 2 = 3 ∨ SpriteCovers s i y ∧ field (attr s i 0) 10 2 = 3

/-- The internal reference register a line starts with: the stored value at line 0 (48_bg_producers R772). -/
def lineStart (y : Fin 160) (low high : Half) (held : BitVec 28) : BitVec 28 :=
  if y.val = 0 then high.extractLsb' 0 12 ++ low else held

end Sys2Proof.Statements

/-- A renderer step of a visible line writes that line's row of the frame from the line buffers and no other row, latches
the affine reference registers at line 0 and advances them by PB and PD, and changes nothing a program reads; it is
refused in modes 6 and 7, and with sprites on for a prohibited sprite (47_compositor R700, R701; 48_bg_producers R760,
R772; 49_sprite_producer R821 to R824). When a render is in order, the draw it takes, and which sprites of SHAPE 3 refuse
which lines are the model's choice (log 6, log 8, log 19). -/
def Obligations.RenderTurn : Prop :=
  ∀ (s : State) (y : Fin 160) (rest : List Turn), s.schedule = .render y :: rest →
    (s.line.val ≠ y.val ∨ s.phase ≠ .budget → step s = .refused .frameOrder) ∧
    (s.line.val = y.val → s.phase = .budget →
      (6 ≤ field (ioValue s .dispcnt) 0 3 → step s = .refused .bgMode67) ∧
      (field (ioValue s .dispcnt) 0 3 < 6 → field (ioValue s .dispcnt) 12 1 = 1 →
        (∃ i < 128, SpriteProhibited s i y.val) → step s = .refused .objProhibitedAttribute) ∧
      (field (ioValue s .dispcnt) 0 3 < 6 →
        (field (ioValue s .dispcnt) 12 1 = 1 → ∀ i < 128, ¬ SpriteProhibited s i y.val) →
        ∃ t, step s = .next t ∧ rowOf t.frame y.val = some (Vector.ofFn fun x => t.compose x y.val) ∧
          (∀ z, z ≠ y.val → rowOf t.frame z = rowOf s.frame z) ∧
          t.bg2xInt = lineStart y (s.ioRaw .bg2xl) (s.ioRaw .bg2xh) s.bg2xInt + (s.ioRaw .bg2pb).signExtend 28 ∧
          t.bg2yInt = lineStart y (s.ioRaw .bg2yl) (s.ioRaw .bg2yh) s.bg2yInt + (s.ioRaw .bg2pd).signExtend 28 ∧
          t.bg3xInt = lineStart y (s.ioRaw .bg3xl) (s.ioRaw .bg3xh) s.bg3xInt + (s.ioRaw .bg3pb).signExtend 28 ∧
          t.bg3yInt = lineStart y (s.ioRaw .bg3yl) (s.ioRaw .bg3yh) s.bg3yInt + (s.ioRaw .bg3pd).signExtend 28 ∧
          t.schedule = rest ∧ t.line = s.line ∧ t.phase = .effects ∧ t.draws = s.draws + 1 ∧ t.regs = s.regs ∧
          t.cpsr = s.cpsr ∧ t.spsrs = s.spsrs ∧ t.pc = s.pc ∧ t.mem = s.mem ∧ t.io = s.io ∧ t.envEvents = s.envEvents ∧
          t.cycles = s.cycles ∧ t.userBankHazard = s.userBankHazard ∧ t.powerOns = s.powerOns))

namespace Sys2Proof.Statements

/-- A byte of the VRAM array, whose first bytes the bus shows from 0x06000000 on (20_memory R165). -/
def vramAt (s : State) (o : Nat) : Nat := (s.readByte (BitVec.ofNat 32 (0x06000000 + o))).toNat

/-- A byte of VRAM as the tile modes read it: 0 from offset 0x10000 on (48_bg_producers R762). -/
def tileAt (s : State) (o : Nat) : Nat := if 0x10000 ≤ o then 0 else vramAt s o

/-- A colour of palette RAM at byte offset `base`, with the opaque bit (48_bg_producers R761). -/
def opaqueColour (s : State) (base i : Nat) : Half := BitVec.ofNat 16 (halfAt s 0x05000000 (base + 2 * i)) ||| 0x8000#16

/-- The pixel of index `idx` in a palette from entry `first` on: index 0 is transparent (48_bg_producers R761,
49_sprite_producer R828). -/
def indexedColour (s : State) (base first idx : Nat) : Half :=
  if idx = 0 then 0#16 else opaqueColour s base (first + idx)

/-- A text layer's pixel at screen x on line y (48_bg_producers R764 to R768). -/
def textColour (s : State) (cnt hofs vofs x y : Nat) : Half :=
  let size := field cnt 14 2
  let sx := (x + hofs) % (if size = 1 ∨ size = 3 then 512 else 256)
  let sy := (y + vofs) % (if size = 2 ∨ size = 3 then 512 else 256)
  let block := sx / 8 / 32 + sy / 8 / 32 * (if size = 3 then 2 else 1)
  let map := field cnt 8 5 * 0x800 + block * 0x800 + (sy / 8 % 32 * 32 + sx / 8 % 32) * 2
  let e := tileAt s map + 256 * tileAt s (map + 1)
  let px := if field e 10 1 = 1 then 7 - sx % 8 else sx % 8
  let py := if field e 11 1 = 1 then 7 - sy % 8 else sy % 8
  let chars := field cnt 2 2 * 0x4000
  if field cnt 7 1 = 1 then indexedColour s 0 0 (tileAt s (chars + field e 0 10 * 64 + py * 8 + px))
  else indexedColour s 0 (field e 12 4 * 16)
    (field (tileAt s (chars + field e 0 10 * 32 + py * 4 + px / 2)) (if px % 2 = 0 then 0 else 4) 4)

/-- A texel coordinate at screen x: the reference point, moved back by `m` lines, plus x steps, without its 8 fraction
bits (48_bg_producers R763, R770, R779). -/
def texelAt (start : BitVec 28) (perLine perPixel : Half) (m x : Nat) : Int :=
  ((start - BitVec.ofInt 28 ((m : Int) * perLine.toInt)).toInt + (x : Int) * perPixel.toInt) / 256

/-- A point lies in a rectangle at the origin. -/
def inRectangle (tx ty : Int) (w h : Nat) : Prop := 0 ≤ tx ∧ tx < w ∧ 0 ≤ ty ∧ ty < h

/-- An affine layer's pixel at a texel: 0 outside the layer unless it wraps (48_bg_producers R770). -/
def AffineColour (s : State) (cnt : Nat) (tx ty : Int) (px : Half) : Prop :=
  let size : Nat := 128 * 2 ^ field cnt 14 2
  let x := (tx % (size : Int)).toNat
  let y := (ty % (size : Int)).toNat
  let tile := tileAt s (field cnt 8 5 * 0x800 + y / 8 * (size / 8) + x / 8)
  (field cnt 13 1 = 0 ∧ ¬ inRectangle tx ty size size → px = 0#16) ∧
    (field cnt 13 1 = 1 ∨ inRectangle tx ty size size →
      px = indexedColour s 0 0 (tileAt s (field cnt 2 2 * 0x4000 + tile * 64 + y % 8 * 8 + x % 8)))

/-- The pixel of BG2 in modes 3, 4 and 5 at a texel: 0 outside the bitmap; a stored halfword with the opaque bit, or a
palette index (48_bg_producers R779 to R782). -/
def BitmapColour (s : State) (tx ty : Int) (px : Half) : Prop :=
  let mode := field (ioValue s .dispcnt) 0 3
  let base := 0xA000 * field (ioValue s .dispcnt) 4 1
  (mode = 3 → (¬ inRectangle tx ty 240 160 → px = 0#16) ∧ (inRectangle tx ty 240 160 →
      px = BitVec.ofNat 16 (halfAt s 0x06000000 ((ty.toNat * 240 + tx.toNat) * 2)) ||| 0x8000#16)) ∧
    (mode = 4 → (¬ inRectangle tx ty 240 160 → px = 0#16) ∧ (inRectangle tx ty 240 160 →
      px = indexedColour s 0 0 (vramAt s (base + ty.toNat * 240 + tx.toNat)))) ∧
    (mode = 5 → (¬ inRectangle tx ty 160 128 → px = 0#16) ∧ (inRectangle tx ty 160 128 →
      px = BitVec.ofNat 16 (halfAt s 0x06000000 (base + (ty.toNat * 160 + tx.toNat) * 2)) ||| 0x8000#16))

/-- The control register of a layer. -/
def controlOf (k : Fin 4) : IoReg :=
  match k with
  | 0 => .bg0cnt
  | 1 => .bg1cnt
  | 2 => .bg2cnt
  | 3 => .bg3cnt

/-- The scroll registers of a layer. -/
def scrollOf (k : Fin 4) : IoReg × IoReg :=
  match k with
  | 0 => (.bg0hofs, .bg0vofs)
  | 1 => (.bg1hofs, .bg1vofs)
  | 2 => (.bg2hofs, .bg2vofs)
  | 3 => (.bg3hofs, .bg3vofs)

/-- The table of layer kinds (48_bg_producers R760). -/
def IsText (mode k : Nat) : Prop := mode = 0 ∨ mode = 1 ∧ k < 2

def IsAffine (mode k : Nat) : Prop := mode = 1 ∧ k = 2 ∨ mode = 2 ∧ 2 ≤ k

def IsBitmap (mode k : Nat) : Prop := 3 ≤ mode ∧ mode < 6 ∧ k = 2

/-- What a line of layer k holds at screen x: the layer's pixel at the column and line that the mosaic snaps x and y to
(48_bg_producers R763). -/
def LayerColour (s : State) (y : Fin 160) (k : Fin 4) (x : Nat) (px : Half) : Prop :=
  let mode := field (ioValue s .dispcnt) 0 3
  let cnt := ioValue s (controlOf k)
  let mh := if field cnt 6 1 = 1 then field (ioValue s .mosaic) 0 4 + 1 else 1
  let mv := if field cnt 6 1 = 1 then field (ioValue s .mosaic) 4 4 + 1 else 1
  let sx := x - x % mh
  let m := y.val % mv
  let tx2 := texelAt (lineStart y (s.ioRaw .bg2xl) (s.ioRaw .bg2xh) s.bg2xInt) (s.ioRaw .bg2pb) (s.ioRaw .bg2pa) m sx
  let ty2 := texelAt (lineStart y (s.ioRaw .bg2yl) (s.ioRaw .bg2yh) s.bg2yInt) (s.ioRaw .bg2pd) (s.ioRaw .bg2pc) m sx
  let tx3 := texelAt (lineStart y (s.ioRaw .bg3xl) (s.ioRaw .bg3xh) s.bg3xInt) (s.ioRaw .bg3pb) (s.ioRaw .bg3pa) m sx
  let ty3 := texelAt (lineStart y (s.ioRaw .bg3yl) (s.ioRaw .bg3yh) s.bg3yInt) (s.ioRaw .bg3pd) (s.ioRaw .bg3pc) m sx
  (IsText mode k.val → px = textColour s cnt (field (ioValue s (scrollOf k).1) 0 9)
      (field (ioValue s (scrollOf k).2) 0 9) sx (y.val - m)) ∧
    (IsAffine mode k.val → if k = 3 then AffineColour s cnt tx3 ty3 px else AffineColour s cnt tx2 ty2 px) ∧
    (IsBitmap mode k.val → BitmapColour s tx2 ty2 px)

end Sys2Proof.Statements

/-- What the background producers leave after a renderer step: a layer is present when the mode gives it a kind and
DISPCNT enables it; the line of a present layer holds its text, affine or bitmap pixels, mosaic included; the line of any
other keeps what it held (48_bg_producers R760 to R768, R770, R772, R779 to R782). Two corners of the mosaic are the
model's choice (log 18). -/
def Obligations.BackgroundLines : Prop :=
  ∀ (s t : State) (y : Fin 160) (rest : List Turn), s.schedule = .render y :: rest → step s = .next t →
    ∀ (k : Fin 4) (produced : Prop), (produced ↔ field (ioValue s .dispcnt) (8 + k.val) 1 = 1 ∧
        (IsText (field (ioValue s .dispcnt) 0 3) k.val ∨ IsAffine (field (ioValue s .dispcnt) 0 3) k.val ∨
          IsBitmap (field (ioValue s .dispcnt) 0 3) k.val)) →
      (t.bgPresent[k] = true ↔ produced) ∧ (¬ produced → t.bgLine[k] = s.bgLine[k]) ∧
        (produced → ∀ x : Fin 240, LayerColour s y k x.val t.bgLine[k][x])

namespace Sys2Proof.Statements

/-- The left edge of a sprite, a signed 9-bit number (49_sprite_producer R822, R824). -/
def spriteLeft (s : State) (i : Nat) : Int :=
  if field (attr s i 1) 0 9 < 256 then field (attr s i 1) 0 9 else (field (attr s i 1) 0 9 : Int) - 512

/-- A parameter of the affine group a sprite names: PA, PB, PC and PD for k = 0 to 3 (49_sprite_producer R821). -/
def affineParameter (s : State) (i k : Nat) : Int :=
  signed16 (halfAt s 0x07000000 (32 * field (attr s i 1) 9 5 + 6 + 8 * k))

/-- The texel a box column and row show (49_sprite_producer R825, R826). -/
def SpriteTexel (s : State) (i sx sy : Nat) (tx ty : Int) : Prop :=
  let w := (sizeOf s i).1
  let h := (sizeOf s i).2
  let dx : Int := (sx : Int) - ((boxScale s i * w / 2 : Nat) : Int)
  let dy : Int := (sy : Int) - ((boxScale s i * h / 2 : Nat) : Int)
  (field (attr s i 0) 8 1 = 1 →
    tx = (affineParameter s i 0 * dx + affineParameter s i 1 * dy) / 256 + ((w / 2 : Nat) : Int) ∧
      ty = (affineParameter s i 2 * dx + affineParameter s i 3 * dy) / 256 + ((h / 2 : Nat) : Int)) ∧
    (field (attr s i 0) 8 1 = 0 →
      tx = (if field (attr s i 1) 12 1 = 1 then (w : Int) - 1 - sx else sx) ∧
        ty = (if field (attr s i 1) 13 1 = 1 then (h : Int) - 1 - sy else sy))

/-- A byte of the VRAM array as a sprite reads it in the draw of the renderer's turn; past the end of the array it is a
free value (49_sprite_producer R828; log 17). -/
def spriteByte (s : State) (o : Nat) : Nat :=
  if o < 0x18000 then vramAt s o else (Config.vramOutside (s.draws + 1) o).toNat

/-- The colour of a texel of sprite i: by OBJ_1D the tile, then its 4-bpp or 8-bpp index in the sprite palette; 0 for
index 0, and in the bitmap modes for the tiles the bitmap covers (49_sprite_producer R827, R828). -/
def spriteColour (s : State) (i tx ty : Nat) : Half :=
  let u := if field (attr s i 0) 13 1 = 1 then 2 else 1
  let tile := if field (ioValue s .dispcnt) 6 1 = 1 then
      field (attr s i 2) 0 10 + (ty / 8 * ((sizeOf s i).1 / 8) + tx / 8) * u
    else field (attr s i 2) 0 10 + ty / 8 * 32 + tx / 8 * u
  let off := tile * 32 % 0x8000
  let px := tx % 8
  let py := ty % 8
  if 3 ≤ field (ioValue s .dispcnt) 0 3 ∧ off < 0x4000 then 0#16
  else if field (attr s i 0) 13 1 = 1 then indexedColour s 0x200 0 (spriteByte s (0x10000 + off + py * 8 + px))
  else indexedColour s 0x200 (field (attr s i 2) 12 4 * 16)
    (field (spriteByte s (0x10000 + off + py * 4 + px / 2)) (if px % 2 = 0 then 0 else 4) 4)

/-- Sprite i has an opaque pixel of this colour at (x, y): it is displayed, its box holds the point, and the texel of the
column and row its mosaic snaps to, not left of the box, is inside the texture and not transparent (49_sprite_producer
R820, R824 to R829; log 18). -/
def SpritePixel (s : State) (i x y : Nat) (colour : Half) : Prop :=
  let mh := if field (attr s i 0) 12 1 = 1 then field (ioValue s .mosaic) 8 4 + 1 else 1
  let mv := if field (attr s i 0) 12 1 = 1 then field (ioValue s .mosaic) 12 4 + 1 else 1
  SpriteShown s i ∧ SpriteCovers s i y ∧ spriteLeft s i ≤ x ∧
    x < spriteLeft s i + ((boxScale s i * (sizeOf s i).1 : Nat) : Int) ∧
    ∃ tx ty, SpriteTexel s i (max ((x - x % mh : Nat) : Int) (spriteLeft s i) - spriteLeft s i).toNat
        (boxRow s i y - boxRow s i y % mv) tx ty ∧
      inRectangle tx ty (sizeOf s i).1 (sizeOf s i).2 ∧ colour = spriteColour s i tx.toNat ty.toNat ∧
      colour.getLsbD 15 = true

/-- Sprite i is in window mode. -/
def WindowSprite (s : State) (i : Nat) : Prop := field (attr s i 0) 10 2 = 2

/-- Sprite i comes before sprite j at a pixel: a smaller priority number, or the same and an earlier OAM entry
(49_sprite_producer R820). -/
def SpriteBefore (s : State) (i j : Nat) : Prop :=
  field (attr s i 2) 10 2 < field (attr s j 2) 10 2 ∨ field (attr s i 2) 10 2 = field (attr s j 2) 10 2 ∧ i ≤ j

end Sys2Proof.Statements

/-- What the sprite producer leaves at each pixel after a renderer step: with sprites on, the colour of the opaque pixel of
smallest priority number, the earlier OAM entry on a tie, with its priority plus 1 and its semi-transparent flag; nothing
where no sprite has one; the window flag where a window sprite has an opaque pixel; with sprites off, nothing at all
(49_sprite_producer R820 to R829; 10_state R70). Two corners of the mosaic, and a byte past the end of VRAM, are the
model's choice (log 18, log 17). -/
def Obligations.SpriteLines : Prop :=
  ∀ (s t : State) (y : Fin 160) (rest : List Turn), s.schedule = .render y :: rest → step s = .next t →
    ∀ (x : Fin 240) (data : Nat), data = (t.objMeta[x]).toNat → field data 5 3 = 0 ∧
      (field (ioValue s .dispcnt) 12 1 = 0 → t.objLine[x] = 0#16 ∧ data = 0) ∧
      (field (ioValue s .dispcnt) 12 1 = 1 →
        (field data 3 1 = 1 ↔ ∃ i < 128, WindowSprite s i ∧ ∃ colour, SpritePixel s i x.val y.val colour) ∧
        ((∀ i < 128, ∀ colour, SpritePixel s i x.val y.val colour → WindowSprite s i) →
          t.objLine[x] = 0#16 ∧ field data 0 3 = 0 ∧ field data 4 1 = 0) ∧
        ∀ i < 128, ∀ colour, ¬ WindowSprite s i → SpritePixel s i x.val y.val colour →
          (∀ j < 128, ¬ WindowSprite s j → (∃ other, SpritePixel s j x.val y.val other) → SpriteBefore s i j) →
          t.objLine[x] = colour ∧ field data 0 3 = field (attr s i 2) 10 2 + 1 ∧
            (field data 4 1 = 1 ↔ field (attr s i 0) 10 2 = 1))

namespace Sys2Proof.Statements

/-- The 8-bit value of a 5-bit channel (47_compositor R713). -/
def channel8 (px : Half) (k : Nat) : Nat := 8 * (px.toNat / 2 ^ (5 * k) % 32) + px.toNat / 2 ^ (5 * k) % 32 / 4

/-- A pixel has these channels. -/
def RgbIs (p : Rgb) (f : Nat → Nat) : Prop := p.r.toNat = f 0 ∧ p.g.toNat = f 1 ∧ p.b.toNat = f 2

/-- A coordinate below `limit` is in the range of a window edge pair; an inverted pair has one of two answers
(47_compositor R703; log 20). -/
def InRange (limit a lo hi : Nat) : Prop :=
  (lo ≤ hi ∧ lo ≤ a ∧ a < hi) ∨
    (hi < lo ∧ (match Config.windowGarbage with
      | .wrap => lo ≤ a ∨ a < hi
      | .clampHigh => lo ≤ a ∧ a < limit))

/-- A point is inside a window rectangle, and the window is enabled by bit `bit` of DISPCNT (47_compositor R702, R703). -/
def InWindow (s : State) (bit : Nat) (h v : IoReg) (x y : Nat) : Prop :=
  field (ioValue s .dispcnt) bit 1 = 1 ∧ InRange 240 x (field (ioValue s h) 8 8) (field (ioValue s h) 0 8) ∧
    InRange 160 y (field (ioValue s v) 8 8) (field (ioValue s v) 0 8)

/-- The 6-bit control of a pixel: all ones with no window enabled, else that of WIN0, of WIN1, of the sprite window, or of
the outside, the first that holds the pixel (47_compositor R702). -/
def WindowControlIs (s : State) (x : Fin 240) (y : Nat) (ctl : BitVec 6) : Prop :=
  let win0 := InWindow s 13 .win0h .win0v x.val y
  let win1 := InWindow s 14 .win1h .win1v x.val y
  let winObj := field (ioValue s .dispcnt) 15 1 = 1 ∧ field (s.objMeta[x]).toNat 3 1 = 1
  (field (ioValue s .dispcnt) 13 3 = 0 → ctl = 0x3F#6) ∧
    (win0 → ctl.toNat = field (ioValue s .winin) 0 6) ∧
    (¬ win0 → win1 → ctl.toNat = field (ioValue s .winin) 8 6) ∧
    (¬ win0 → ¬ win1 → winObj → ctl.toNat = field (ioValue s .winout) 8 6) ∧
    (field (ioValue s .dispcnt) 13 3 ≠ 0 → ¬ win0 → ¬ win1 → ¬ winObj → ctl.toNat = field (ioValue s .winout) 0 6)

/-- A drawn pixel: the colour, its layer (0 to 3 BGk, 4 OBJ, 5 backdrop) and its semi-transparent flag. -/
structure Drawn where
  colour : Half
  layer : Nat
  semi : Bool

/-- What BG k draws at priority p: nothing, or its pixel (47_compositor R706). -/
def bgDrawn (s : State) (ctl : BitVec 6) (x : Fin 240) (p : Nat) (k : Fin 4) : List Drawn :=
  if s.bgPresent[k] = true ∧ field (ioValue s .dispcnt) (8 + k.val) 1 = 1 ∧ ctl.getLsbD k.val = true ∧
      field (ioValue s (controlOf k)) 0 2 = p ∧ (s.bgLine[k][x]).getLsbD 15 = true then
    [{ colour := s.bgLine[k][x], layer := k.val, semi := false }]
  else []

/-- What the sprites draw at priority p: nothing, or their pixel (47_compositor R706, R708). -/
def objDrawn (s : State) (ctl : BitVec 6) (x : Fin 240) (p : Nat) : List Drawn :=
  if field (ioValue s .dispcnt) 12 1 = 1 ∧ ctl.getLsbD 4 = true ∧ field (s.objMeta[x]).toNat 0 3 = p + 1 ∧
      (s.objLine[x]).getLsbD 15 = true then
    [{ colour := s.objLine[x], layer := 4, semi := decide (field (s.objMeta[x]).toNat 4 1 = 1) }]
  else []

/-- Everything drawn at a pixel in order: the backdrop, then at each priority from 3 down to 0 BG3, BG2, BG1, BG0 and the
sprites (47_compositor R704, R706, R708). -/
def drawnAt (s : State) (ctl : BitVec 6) (x : Fin 240) : List Drawn :=
  { colour := BitVec.ofNat 16 (halfAt s 0x05000000 0) ||| 0x8000#16, layer := 5, semi := false } ::
    [3, 2, 1, 0].flatMap fun p => bgDrawn s ctl x p 3 ++ bgDrawn s ctl x p 2 ++ bgDrawn s ctl x p 1 ++
      bgDrawn s ctl x p 0 ++ objDrawn s ctl x p

/-- The record holds the last pixel drawn and the one before it, which it covers (47_compositor R705, R707). -/
def RecordHolds (r : BlendRecord) (l : List Drawn) : Prop :=
  match l.reverse with
  | [] => False
  | [a] => r = { top := a.colour, topLayer := a.layer, topSemi := a.semi, under := none }
  | a :: b :: _ => r = { top := a.colour, topLayer := a.layer, topSemi := a.semi, under := some (b.colour, b.layer) }

/-- A semi-transparent sprite pixel is on top (47_compositor R709). -/
def Forced (r : BlendRecord) : Prop := r.topLayer = 4 ∧ r.topSemi = true

/-- A target is drawn directly under the top (47_compositor R709). -/
def TargetUnder (s : State) (r : BlendRecord) : Prop :=
  ∃ px layer, r.under = some (px, layer) ∧ field (ioValue s .bldcnt) (8 + layer) 1 = 1

end Sys2Proof.Statements

/-- The compositor: white under forced blank; else the blend, under the control of the pixel's window, of the record of
the two last drawn pixels of the priority walk; the backdrop, palette entry 0, where every layer is disabled and nothing
is blended; the output depends on nothing but the line buffers, their metadata, palette entry 0 and the I/O registers
(these two are consequences the spec itself derives); every case of the blend decision, with alpha, brighten and darken in
the words of integer arithmetic (47_compositor R702 to R713). Both answers for an inverted window are allowed (log 20). -/
def Obligations.Composition : Prop :=
  (∀ (s : State) (x : Fin 240) (y : Nat),
    ((s.ioRaw .dispcnt).getLsbD 7 = true → RgbIs (s.compose x y) fun _ => 255) ∧
    ((s.ioRaw .dispcnt).getLsbD 7 = false →
      (∃ ctl r, WindowControlIs s x y ctl ∧ RecordHolds r (drawnAt s ctl x) ∧
        s.compose x y = s.blend (ctl.getLsbD 5) r) ∧
      ((∀ k, 8 ≤ k → k ≤ 12 → (s.ioRaw .dispcnt).getLsbD k = false) → (s.ioRaw .bldcnt).extractLsb' 6 2 = 0#2 →
        RgbIs (s.compose x y) (channel8 ((s.memRead .half 0x05000000#32).setWidth 16))))) ∧
  (∀ (s t : State) (x : Fin 240) (y : Nat), t.io = s.io → t.bgLine = s.bgLine → t.bgPresent = s.bgPresent →
    t.objLine = s.objLine → t.objMeta = s.objMeta → t.memRead .half 0x05000000#32 = s.memRead .half 0x05000000#32 →
    t.compose x y = s.compose x y) ∧
  ∀ (s : State) (r : BlendRecord) (mode eva evb evy : Nat), mode = field (ioValue s .bldcnt) 6 2 →
    eva = min 16 (field (ioValue s .bldalpha) 0 5) → evb = min 16 (field (ioValue s .bldalpha) 8 5) →
    evy = min 16 (field (ioValue s .bldy) 0 5) → r.topLayer < 6 → (∀ px layer, r.under = some (px, layer) → layer < 6) →
    (∀ ok, ok = false ∨ mode = 0 → RgbIs (s.blend ok r) (channel8 r.top)) ∧
    (mode ≠ 0 → Forced r ∨ mode = 1 ∧ field (ioValue s .bldcnt) r.topLayer 1 = 1 →
      (∀ px layer, r.under = some (px, layer) → field (ioValue s .bldcnt) (8 + layer) 1 = 1 →
        RgbIs (s.blend true r) fun k => min 255 ((channel8 r.top k * eva + channel8 px k * evb) / 16)) ∧
      (¬ TargetUnder s r → RgbIs (s.blend true r) (channel8 r.top))) ∧
    (¬ Forced r → mode ≠ 0 →
      (field (ioValue s .bldcnt) r.topLayer 1 = 0 → RgbIs (s.blend true r) (channel8 r.top)) ∧
      (field (ioValue s .bldcnt) r.topLayer 1 = 1 →
        (mode = 2 → RgbIs (s.blend true r) fun k => channel8 r.top k + (255 - channel8 r.top k) * evy / 16) ∧
        (mode = 3 → RgbIs (s.blend true r) fun k => channel8 r.top k - channel8 r.top k * evy / 16)))
end

