-- ==== Sys2Proof/Laws/State.lean ====
section
/-! SUPPORT. Laws/State.lean: what each named update of State leaves alone, one lemma per field, all by rfl or by the
cases of the update. -/

namespace Sys2Proof.Machine

/-! ### setReg -/

@[simp] theorem setReg_regs (s : State) (p : PhysReg) (v : Word) : (s.setReg p v).regs = s.regs.set p.idx v := rfl
@[simp] theorem setReg_cpsr (s : State) (p : PhysReg) (v : Word) : (s.setReg p v).cpsr = s.cpsr := rfl
@[simp] theorem setReg_spsrs (s : State) (p : PhysReg) (v : Word) : (s.setReg p v).spsrs = s.spsrs := rfl
@[simp] theorem setReg_pc (s : State) (p : PhysReg) (v : Word) : (s.setReg p v).pc = s.pc := rfl
@[simp] theorem setReg_cycles (s : State) (p : PhysReg) (v : Word) : (s.setReg p v).cycles = s.cycles := rfl
@[simp] theorem setReg_userBankHazard (s : State) (p : PhysReg) (v : Word) : (s.setReg p v).userBankHazard = s.userBankHazard := rfl
@[simp] theorem setReg_mem (s : State) (p : PhysReg) (v : Word) : (s.setReg p v).mem = s.mem := rfl
@[simp] theorem setReg_io (s : State) (p : PhysReg) (v : Word) : (s.setReg p v).io = s.io := rfl
@[simp] theorem setReg_bg2xInt (s : State) (p : PhysReg) (v : Word) : (s.setReg p v).bg2xInt = s.bg2xInt := rfl
@[simp] theorem setReg_bg2yInt (s : State) (p : PhysReg) (v : Word) : (s.setReg p v).bg2yInt = s.bg2yInt := rfl
@[simp] theorem setReg_bg3xInt (s : State) (p : PhysReg) (v : Word) : (s.setReg p v).bg3xInt = s.bg3xInt := rfl
@[simp] theorem setReg_bg3yInt (s : State) (p : PhysReg) (v : Word) : (s.setReg p v).bg3yInt = s.bg3yInt := rfl
@[simp] theorem setReg_bgLine (s : State) (p : PhysReg) (v : Word) : (s.setReg p v).bgLine = s.bgLine := rfl
@[simp] theorem setReg_bgPresent (s : State) (p : PhysReg) (v : Word) : (s.setReg p v).bgPresent = s.bgPresent := rfl
@[simp] theorem setReg_objLine (s : State) (p : PhysReg) (v : Word) : (s.setReg p v).objLine = s.objLine := rfl
@[simp] theorem setReg_objMeta (s : State) (p : PhysReg) (v : Word) : (s.setReg p v).objMeta = s.objMeta := rfl
@[simp] theorem setReg_frame (s : State) (p : PhysReg) (v : Word) : (s.setReg p v).frame = s.frame := rfl
@[simp] theorem setReg_envEvents (s : State) (p : PhysReg) (v : Word) : (s.setReg p v).envEvents = s.envEvents := rfl
@[simp] theorem setReg_schedule (s : State) (p : PhysReg) (v : Word) : (s.setReg p v).schedule = s.schedule := rfl
@[simp] theorem setReg_draws (s : State) (p : PhysReg) (v : Word) : (s.setReg p v).draws = s.draws := rfl
@[simp] theorem setReg_powerOns (s : State) (p : PhysReg) (v : Word) : (s.setReg p v).powerOns = s.powerOns := rfl
@[simp] theorem setReg_line (s : State) (p : PhysReg) (v : Word) : (s.setReg p v).line = s.line := rfl
@[simp] theorem setReg_phase (s : State) (p : PhysReg) (v : Word) : (s.setReg p v).phase = s.phase := rfl

/-! ### setIoRaw -/

@[simp] theorem setIoRaw_regs (s : State) (r : IoReg) (v : Half) : (s.setIoRaw r v).regs = s.regs := rfl
@[simp] theorem setIoRaw_cpsr (s : State) (r : IoReg) (v : Half) : (s.setIoRaw r v).cpsr = s.cpsr := rfl
@[simp] theorem setIoRaw_spsrs (s : State) (r : IoReg) (v : Half) : (s.setIoRaw r v).spsrs = s.spsrs := rfl
@[simp] theorem setIoRaw_pc (s : State) (r : IoReg) (v : Half) : (s.setIoRaw r v).pc = s.pc := rfl
@[simp] theorem setIoRaw_cycles (s : State) (r : IoReg) (v : Half) : (s.setIoRaw r v).cycles = s.cycles := rfl
@[simp] theorem setIoRaw_userBankHazard (s : State) (r : IoReg) (v : Half) : (s.setIoRaw r v).userBankHazard = s.userBankHazard := rfl
@[simp] theorem setIoRaw_mem (s : State) (r : IoReg) (v : Half) : (s.setIoRaw r v).mem = s.mem := rfl
@[simp] theorem setIoRaw_io (s : State) (r : IoReg) (v : Half) : (s.setIoRaw r v).io = s.io.set r.idx v := rfl
@[simp] theorem setIoRaw_bg2xInt (s : State) (r : IoReg) (v : Half) : (s.setIoRaw r v).bg2xInt = s.bg2xInt := rfl
@[simp] theorem setIoRaw_bg2yInt (s : State) (r : IoReg) (v : Half) : (s.setIoRaw r v).bg2yInt = s.bg2yInt := rfl
@[simp] theorem setIoRaw_bg3xInt (s : State) (r : IoReg) (v : Half) : (s.setIoRaw r v).bg3xInt = s.bg3xInt := rfl
@[simp] theorem setIoRaw_bg3yInt (s : State) (r : IoReg) (v : Half) : (s.setIoRaw r v).bg3yInt = s.bg3yInt := rfl
@[simp] theorem setIoRaw_bgLine (s : State) (r : IoReg) (v : Half) : (s.setIoRaw r v).bgLine = s.bgLine := rfl
@[simp] theorem setIoRaw_bgPresent (s : State) (r : IoReg) (v : Half) : (s.setIoRaw r v).bgPresent = s.bgPresent := rfl
@[simp] theorem setIoRaw_objLine (s : State) (r : IoReg) (v : Half) : (s.setIoRaw r v).objLine = s.objLine := rfl
@[simp] theorem setIoRaw_objMeta (s : State) (r : IoReg) (v : Half) : (s.setIoRaw r v).objMeta = s.objMeta := rfl
@[simp] theorem setIoRaw_frame (s : State) (r : IoReg) (v : Half) : (s.setIoRaw r v).frame = s.frame := rfl
@[simp] theorem setIoRaw_envEvents (s : State) (r : IoReg) (v : Half) : (s.setIoRaw r v).envEvents = s.envEvents := rfl
@[simp] theorem setIoRaw_schedule (s : State) (r : IoReg) (v : Half) : (s.setIoRaw r v).schedule = s.schedule := rfl
@[simp] theorem setIoRaw_draws (s : State) (r : IoReg) (v : Half) : (s.setIoRaw r v).draws = s.draws := rfl
@[simp] theorem setIoRaw_powerOns (s : State) (r : IoReg) (v : Half) : (s.setIoRaw r v).powerOns = s.powerOns := rfl
@[simp] theorem setIoRaw_line (s : State) (r : IoReg) (v : Half) : (s.setIoRaw r v).line = s.line := rfl
@[simp] theorem setIoRaw_phase (s : State) (r : IoReg) (v : Half) : (s.setIoRaw r v).phase = s.phase := rfl

/-! ### storeCells -/

@[simp] theorem storeCells_regs (s : State) (cells : List Host.Cell) : (s.storeCells cells).regs = s.regs := rfl
@[simp] theorem storeCells_cpsr (s : State) (cells : List Host.Cell) : (s.storeCells cells).cpsr = s.cpsr := rfl
@[simp] theorem storeCells_spsrs (s : State) (cells : List Host.Cell) : (s.storeCells cells).spsrs = s.spsrs := rfl
@[simp] theorem storeCells_pc (s : State) (cells : List Host.Cell) : (s.storeCells cells).pc = s.pc := rfl
@[simp] theorem storeCells_cycles (s : State) (cells : List Host.Cell) : (s.storeCells cells).cycles = s.cycles := rfl
@[simp] theorem storeCells_userBankHazard (s : State) (cells : List Host.Cell) : (s.storeCells cells).userBankHazard = s.userBankHazard := rfl
@[simp] theorem storeCells_mem (s : State) (cells : List Host.Cell) : (s.storeCells cells).mem = cells.foldl (fun m c => Memory.set m c.1 c.2) s.mem := rfl
@[simp] theorem storeCells_io (s : State) (cells : List Host.Cell) : (s.storeCells cells).io = s.io := rfl
@[simp] theorem storeCells_bg2xInt (s : State) (cells : List Host.Cell) : (s.storeCells cells).bg2xInt = s.bg2xInt := rfl
@[simp] theorem storeCells_bg2yInt (s : State) (cells : List Host.Cell) : (s.storeCells cells).bg2yInt = s.bg2yInt := rfl
@[simp] theorem storeCells_bg3xInt (s : State) (cells : List Host.Cell) : (s.storeCells cells).bg3xInt = s.bg3xInt := rfl
@[simp] theorem storeCells_bg3yInt (s : State) (cells : List Host.Cell) : (s.storeCells cells).bg3yInt = s.bg3yInt := rfl
@[simp] theorem storeCells_bgLine (s : State) (cells : List Host.Cell) : (s.storeCells cells).bgLine = s.bgLine := rfl
@[simp] theorem storeCells_bgPresent (s : State) (cells : List Host.Cell) : (s.storeCells cells).bgPresent = s.bgPresent := rfl
@[simp] theorem storeCells_objLine (s : State) (cells : List Host.Cell) : (s.storeCells cells).objLine = s.objLine := rfl
@[simp] theorem storeCells_objMeta (s : State) (cells : List Host.Cell) : (s.storeCells cells).objMeta = s.objMeta := rfl
@[simp] theorem storeCells_frame (s : State) (cells : List Host.Cell) : (s.storeCells cells).frame = s.frame := rfl
@[simp] theorem storeCells_envEvents (s : State) (cells : List Host.Cell) : (s.storeCells cells).envEvents = s.envEvents := rfl
@[simp] theorem storeCells_schedule (s : State) (cells : List Host.Cell) : (s.storeCells cells).schedule = s.schedule := rfl
@[simp] theorem storeCells_draws (s : State) (cells : List Host.Cell) : (s.storeCells cells).draws = s.draws := rfl
@[simp] theorem storeCells_powerOns (s : State) (cells : List Host.Cell) : (s.storeCells cells).powerOns = s.powerOns := rfl
@[simp] theorem storeCells_line (s : State) (cells : List Host.Cell) : (s.storeCells cells).line = s.line := rfl
@[simp] theorem storeCells_phase (s : State) (cells : List Host.Cell) : (s.storeCells cells).phase = s.phase := rfl

/-! ### advance4 -/

@[simp] theorem advance4_regs (s : State)  : (s.advance4).regs = s.regs := rfl
@[simp] theorem advance4_cpsr (s : State)  : (s.advance4).cpsr = s.cpsr := rfl
@[simp] theorem advance4_spsrs (s : State)  : (s.advance4).spsrs = s.spsrs := rfl
@[simp] theorem advance4_pc (s : State)  : (s.advance4).pc = s.pc + 4#32 := rfl
@[simp] theorem advance4_cycles (s : State)  : (s.advance4).cycles = s.cycles := rfl
@[simp] theorem advance4_userBankHazard (s : State)  : (s.advance4).userBankHazard = s.userBankHazard := rfl
@[simp] theorem advance4_mem (s : State)  : (s.advance4).mem = s.mem := rfl
@[simp] theorem advance4_io (s : State)  : (s.advance4).io = s.io := rfl
@[simp] theorem advance4_bg2xInt (s : State)  : (s.advance4).bg2xInt = s.bg2xInt := rfl
@[simp] theorem advance4_bg2yInt (s : State)  : (s.advance4).bg2yInt = s.bg2yInt := rfl
@[simp] theorem advance4_bg3xInt (s : State)  : (s.advance4).bg3xInt = s.bg3xInt := rfl
@[simp] theorem advance4_bg3yInt (s : State)  : (s.advance4).bg3yInt = s.bg3yInt := rfl
@[simp] theorem advance4_bgLine (s : State)  : (s.advance4).bgLine = s.bgLine := rfl
@[simp] theorem advance4_bgPresent (s : State)  : (s.advance4).bgPresent = s.bgPresent := rfl
@[simp] theorem advance4_objLine (s : State)  : (s.advance4).objLine = s.objLine := rfl
@[simp] theorem advance4_objMeta (s : State)  : (s.advance4).objMeta = s.objMeta := rfl
@[simp] theorem advance4_frame (s : State)  : (s.advance4).frame = s.frame := rfl
@[simp] theorem advance4_envEvents (s : State)  : (s.advance4).envEvents = s.envEvents := rfl
@[simp] theorem advance4_schedule (s : State)  : (s.advance4).schedule = s.schedule := rfl
@[simp] theorem advance4_draws (s : State)  : (s.advance4).draws = s.draws := rfl
@[simp] theorem advance4_powerOns (s : State)  : (s.advance4).powerOns = s.powerOns := rfl
@[simp] theorem advance4_line (s : State)  : (s.advance4).line = s.line := rfl
@[simp] theorem advance4_phase (s : State)  : (s.advance4).phase = s.phase := rfl

/-! ### advance2 -/

@[simp] theorem advance2_regs (s : State)  : (s.advance2).regs = s.regs := rfl
@[simp] theorem advance2_cpsr (s : State)  : (s.advance2).cpsr = s.cpsr := rfl
@[simp] theorem advance2_spsrs (s : State)  : (s.advance2).spsrs = s.spsrs := rfl
@[simp] theorem advance2_pc (s : State)  : (s.advance2).pc = s.pc + 2#32 := rfl
@[simp] theorem advance2_cycles (s : State)  : (s.advance2).cycles = s.cycles := rfl
@[simp] theorem advance2_userBankHazard (s : State)  : (s.advance2).userBankHazard = s.userBankHazard := rfl
@[simp] theorem advance2_mem (s : State)  : (s.advance2).mem = s.mem := rfl
@[simp] theorem advance2_io (s : State)  : (s.advance2).io = s.io := rfl
@[simp] theorem advance2_bg2xInt (s : State)  : (s.advance2).bg2xInt = s.bg2xInt := rfl
@[simp] theorem advance2_bg2yInt (s : State)  : (s.advance2).bg2yInt = s.bg2yInt := rfl
@[simp] theorem advance2_bg3xInt (s : State)  : (s.advance2).bg3xInt = s.bg3xInt := rfl
@[simp] theorem advance2_bg3yInt (s : State)  : (s.advance2).bg3yInt = s.bg3yInt := rfl
@[simp] theorem advance2_bgLine (s : State)  : (s.advance2).bgLine = s.bgLine := rfl
@[simp] theorem advance2_bgPresent (s : State)  : (s.advance2).bgPresent = s.bgPresent := rfl
@[simp] theorem advance2_objLine (s : State)  : (s.advance2).objLine = s.objLine := rfl
@[simp] theorem advance2_objMeta (s : State)  : (s.advance2).objMeta = s.objMeta := rfl
@[simp] theorem advance2_frame (s : State)  : (s.advance2).frame = s.frame := rfl
@[simp] theorem advance2_envEvents (s : State)  : (s.advance2).envEvents = s.envEvents := rfl
@[simp] theorem advance2_schedule (s : State)  : (s.advance2).schedule = s.schedule := rfl
@[simp] theorem advance2_draws (s : State)  : (s.advance2).draws = s.draws := rfl
@[simp] theorem advance2_powerOns (s : State)  : (s.advance2).powerOns = s.powerOns := rfl
@[simp] theorem advance2_line (s : State)  : (s.advance2).line = s.line := rfl
@[simp] theorem advance2_phase (s : State)  : (s.advance2).phase = s.phase := rfl

/-! ### branchThumb -/

@[simp] theorem branchThumb_regs (s : State) (v : Word) : (s.branchThumb v).regs = s.regs := rfl
@[simp] theorem branchThumb_cpsr (s : State) (v : Word) : (s.branchThumb v).cpsr = s.cpsr := rfl
@[simp] theorem branchThumb_spsrs (s : State) (v : Word) : (s.branchThumb v).spsrs = s.spsrs := rfl
@[simp] theorem branchThumb_pc (s : State) (v : Word) : (s.branchThumb v).pc = v &&& 0xFFFFFFFE#32 := rfl
@[simp] theorem branchThumb_cycles (s : State) (v : Word) : (s.branchThumb v).cycles = s.cycles := rfl
@[simp] theorem branchThumb_userBankHazard (s : State) (v : Word) : (s.branchThumb v).userBankHazard = s.userBankHazard := rfl
@[simp] theorem branchThumb_mem (s : State) (v : Word) : (s.branchThumb v).mem = s.mem := rfl
@[simp] theorem branchThumb_io (s : State) (v : Word) : (s.branchThumb v).io = s.io := rfl
@[simp] theorem branchThumb_bg2xInt (s : State) (v : Word) : (s.branchThumb v).bg2xInt = s.bg2xInt := rfl
@[simp] theorem branchThumb_bg2yInt (s : State) (v : Word) : (s.branchThumb v).bg2yInt = s.bg2yInt := rfl
@[simp] theorem branchThumb_bg3xInt (s : State) (v : Word) : (s.branchThumb v).bg3xInt = s.bg3xInt := rfl
@[simp] theorem branchThumb_bg3yInt (s : State) (v : Word) : (s.branchThumb v).bg3yInt = s.bg3yInt := rfl
@[simp] theorem branchThumb_bgLine (s : State) (v : Word) : (s.branchThumb v).bgLine = s.bgLine := rfl
@[simp] theorem branchThumb_bgPresent (s : State) (v : Word) : (s.branchThumb v).bgPresent = s.bgPresent := rfl
@[simp] theorem branchThumb_objLine (s : State) (v : Word) : (s.branchThumb v).objLine = s.objLine := rfl
@[simp] theorem branchThumb_objMeta (s : State) (v : Word) : (s.branchThumb v).objMeta = s.objMeta := rfl
@[simp] theorem branchThumb_frame (s : State) (v : Word) : (s.branchThumb v).frame = s.frame := rfl
@[simp] theorem branchThumb_envEvents (s : State) (v : Word) : (s.branchThumb v).envEvents = s.envEvents := rfl
@[simp] theorem branchThumb_schedule (s : State) (v : Word) : (s.branchThumb v).schedule = s.schedule := rfl
@[simp] theorem branchThumb_draws (s : State) (v : Word) : (s.branchThumb v).draws = s.draws := rfl
@[simp] theorem branchThumb_powerOns (s : State) (v : Word) : (s.branchThumb v).powerOns = s.powerOns := rfl
@[simp] theorem branchThumb_line (s : State) (v : Word) : (s.branchThumb v).line = s.line := rfl
@[simp] theorem branchThumb_phase (s : State) (v : Word) : (s.branchThumb v).phase = s.phase := rfl

/-! ### tick -/

@[simp] theorem tick_regs (s : State)  : (s.tick).regs = s.regs := rfl
@[simp] theorem tick_cpsr (s : State)  : (s.tick).cpsr = s.cpsr := rfl
@[simp] theorem tick_spsrs (s : State)  : (s.tick).spsrs = s.spsrs := rfl
@[simp] theorem tick_pc (s : State)  : (s.tick).pc = s.pc := rfl
@[simp] theorem tick_cycles (s : State)  : (s.tick).cycles = s.cycles := rfl
@[simp] theorem tick_userBankHazard (s : State)  : (s.tick).userBankHazard = s.userBankHazard := rfl
@[simp] theorem tick_mem (s : State)  : (s.tick).mem = s.mem := rfl
@[simp] theorem tick_io (s : State)  : (s.tick).io = s.io := rfl
@[simp] theorem tick_bg2xInt (s : State)  : (s.tick).bg2xInt = s.bg2xInt := rfl
@[simp] theorem tick_bg2yInt (s : State)  : (s.tick).bg2yInt = s.bg2yInt := rfl
@[simp] theorem tick_bg3xInt (s : State)  : (s.tick).bg3xInt = s.bg3xInt := rfl
@[simp] theorem tick_bg3yInt (s : State)  : (s.tick).bg3yInt = s.bg3yInt := rfl
@[simp] theorem tick_bgLine (s : State)  : (s.tick).bgLine = s.bgLine := rfl
@[simp] theorem tick_bgPresent (s : State)  : (s.tick).bgPresent = s.bgPresent := rfl
@[simp] theorem tick_objLine (s : State)  : (s.tick).objLine = s.objLine := rfl
@[simp] theorem tick_objMeta (s : State)  : (s.tick).objMeta = s.objMeta := rfl
@[simp] theorem tick_frame (s : State)  : (s.tick).frame = s.frame := rfl
@[simp] theorem tick_envEvents (s : State)  : (s.tick).envEvents = s.envEvents := rfl
@[simp] theorem tick_schedule (s : State)  : (s.tick).schedule = s.schedule := rfl
@[simp] theorem tick_draws (s : State)  : (s.tick).draws = s.draws + 1 := rfl
@[simp] theorem tick_powerOns (s : State)  : (s.tick).powerOns = s.powerOns := rfl
@[simp] theorem tick_line (s : State)  : (s.tick).line = s.line := rfl
@[simp] theorem tick_phase (s : State)  : (s.tick).phase = s.phase := rfl

/-! ### beginInstr -/

@[simp] theorem beginInstr_regs (s : State) (i : Instr) : (s.beginInstr i).regs = s.regs := rfl
@[simp] theorem beginInstr_cpsr (s : State) (i : Instr) : (s.beginInstr i).cpsr = s.cpsr := rfl
@[simp] theorem beginInstr_spsrs (s : State) (i : Instr) : (s.beginInstr i).spsrs = s.spsrs := rfl
@[simp] theorem beginInstr_pc (s : State) (i : Instr) : (s.beginInstr i).pc = s.pc := rfl
@[simp] theorem beginInstr_cycles (s : State) (i : Instr) : (s.beginInstr i).cycles = s.cycles + instrCycles i s := rfl
@[simp] theorem beginInstr_userBankHazard (s : State) (i : Instr) : (s.beginInstr i).userBankHazard = false := rfl
@[simp] theorem beginInstr_mem (s : State) (i : Instr) : (s.beginInstr i).mem = s.mem := rfl
@[simp] theorem beginInstr_io (s : State) (i : Instr) : (s.beginInstr i).io = s.io := rfl
@[simp] theorem beginInstr_bg2xInt (s : State) (i : Instr) : (s.beginInstr i).bg2xInt = s.bg2xInt := rfl
@[simp] theorem beginInstr_bg2yInt (s : State) (i : Instr) : (s.beginInstr i).bg2yInt = s.bg2yInt := rfl
@[simp] theorem beginInstr_bg3xInt (s : State) (i : Instr) : (s.beginInstr i).bg3xInt = s.bg3xInt := rfl
@[simp] theorem beginInstr_bg3yInt (s : State) (i : Instr) : (s.beginInstr i).bg3yInt = s.bg3yInt := rfl
@[simp] theorem beginInstr_bgLine (s : State) (i : Instr) : (s.beginInstr i).bgLine = s.bgLine := rfl
@[simp] theorem beginInstr_bgPresent (s : State) (i : Instr) : (s.beginInstr i).bgPresent = s.bgPresent := rfl
@[simp] theorem beginInstr_objLine (s : State) (i : Instr) : (s.beginInstr i).objLine = s.objLine := rfl
@[simp] theorem beginInstr_objMeta (s : State) (i : Instr) : (s.beginInstr i).objMeta = s.objMeta := rfl
@[simp] theorem beginInstr_frame (s : State) (i : Instr) : (s.beginInstr i).frame = s.frame := rfl
@[simp] theorem beginInstr_envEvents (s : State) (i : Instr) : (s.beginInstr i).envEvents = s.envEvents := rfl
@[simp] theorem beginInstr_schedule (s : State) (i : Instr) : (s.beginInstr i).schedule = s.schedule := rfl
@[simp] theorem beginInstr_draws (s : State) (i : Instr) : (s.beginInstr i).draws = s.draws + 1 := rfl
@[simp] theorem beginInstr_powerOns (s : State) (i : Instr) : (s.beginInstr i).powerOns = s.powerOns := rfl
@[simp] theorem beginInstr_line (s : State) (i : Instr) : (s.beginInstr i).line = s.line := rfl
@[simp] theorem beginInstr_phase (s : State) (i : Instr) : (s.beginInstr i).phase = s.phase := rfl

/-! ### writeRegMode -/

@[simp] theorem writeRegMode_cpsr (s : State) (m : Mode) (i : RegNum) (v : Word) : (s.writeRegMode m i v).cpsr = s.cpsr := by unfold State.writeRegMode; split <;> rfl
@[simp] theorem writeRegMode_spsrs (s : State) (m : Mode) (i : RegNum) (v : Word) : (s.writeRegMode m i v).spsrs = s.spsrs := by unfold State.writeRegMode; split <;> rfl
@[simp] theorem writeRegMode_pc (s : State) (m : Mode) (i : RegNum) (v : Word) : (s.writeRegMode m i v).pc = s.pc := by unfold State.writeRegMode; split <;> rfl
@[simp] theorem writeRegMode_cycles (s : State) (m : Mode) (i : RegNum) (v : Word) : (s.writeRegMode m i v).cycles = s.cycles := by unfold State.writeRegMode; split <;> rfl
@[simp] theorem writeRegMode_userBankHazard (s : State) (m : Mode) (i : RegNum) (v : Word) : (s.writeRegMode m i v).userBankHazard = s.userBankHazard := by unfold State.writeRegMode; split <;> rfl
@[simp] theorem writeRegMode_mem (s : State) (m : Mode) (i : RegNum) (v : Word) : (s.writeRegMode m i v).mem = s.mem := by unfold State.writeRegMode; split <;> rfl
@[simp] theorem writeRegMode_io (s : State) (m : Mode) (i : RegNum) (v : Word) : (s.writeRegMode m i v).io = s.io := by unfold State.writeRegMode; split <;> rfl
@[simp] theorem writeRegMode_bg2xInt (s : State) (m : Mode) (i : RegNum) (v : Word) : (s.writeRegMode m i v).bg2xInt = s.bg2xInt := by unfold State.writeRegMode; split <;> rfl
@[simp] theorem writeRegMode_bg2yInt (s : State) (m : Mode) (i : RegNum) (v : Word) : (s.writeRegMode m i v).bg2yInt = s.bg2yInt := by unfold State.writeRegMode; split <;> rfl
@[simp] theorem writeRegMode_bg3xInt (s : State) (m : Mode) (i : RegNum) (v : Word) : (s.writeRegMode m i v).bg3xInt = s.bg3xInt := by unfold State.writeRegMode; split <;> rfl
@[simp] theorem writeRegMode_bg3yInt (s : State) (m : Mode) (i : RegNum) (v : Word) : (s.writeRegMode m i v).bg3yInt = s.bg3yInt := by unfold State.writeRegMode; split <;> rfl
@[simp] theorem writeRegMode_bgLine (s : State) (m : Mode) (i : RegNum) (v : Word) : (s.writeRegMode m i v).bgLine = s.bgLine := by unfold State.writeRegMode; split <;> rfl
@[simp] theorem writeRegMode_bgPresent (s : State) (m : Mode) (i : RegNum) (v : Word) : (s.writeRegMode m i v).bgPresent = s.bgPresent := by unfold State.writeRegMode; split <;> rfl
@[simp] theorem writeRegMode_objLine (s : State) (m : Mode) (i : RegNum) (v : Word) : (s.writeRegMode m i v).objLine = s.objLine := by unfold State.writeRegMode; split <;> rfl
@[simp] theorem writeRegMode_objMeta (s : State) (m : Mode) (i : RegNum) (v : Word) : (s.writeRegMode m i v).objMeta = s.objMeta := by unfold State.writeRegMode; split <;> rfl
@[simp] theorem writeRegMode_frame (s : State) (m : Mode) (i : RegNum) (v : Word) : (s.writeRegMode m i v).frame = s.frame := by unfold State.writeRegMode; split <;> rfl
@[simp] theorem writeRegMode_envEvents (s : State) (m : Mode) (i : RegNum) (v : Word) : (s.writeRegMode m i v).envEvents = s.envEvents := by unfold State.writeRegMode; split <;> rfl
@[simp] theorem writeRegMode_schedule (s : State) (m : Mode) (i : RegNum) (v : Word) : (s.writeRegMode m i v).schedule = s.schedule := by unfold State.writeRegMode; split <;> rfl
@[simp] theorem writeRegMode_draws (s : State) (m : Mode) (i : RegNum) (v : Word) : (s.writeRegMode m i v).draws = s.draws := by unfold State.writeRegMode; split <;> rfl
@[simp] theorem writeRegMode_powerOns (s : State) (m : Mode) (i : RegNum) (v : Word) : (s.writeRegMode m i v).powerOns = s.powerOns := by unfold State.writeRegMode; split <;> rfl
@[simp] theorem writeRegMode_line (s : State) (m : Mode) (i : RegNum) (v : Word) : (s.writeRegMode m i v).line = s.line := by unfold State.writeRegMode; split <;> rfl
@[simp] theorem writeRegMode_phase (s : State) (m : Mode) (i : RegNum) (v : Word) : (s.writeRegMode m i v).phase = s.phase := by unfold State.writeRegMode; split <;> rfl

/-! ### writeReg -/

@[simp] theorem writeReg_cpsr (s : State) (i : RegNum) (v : Word) : (s.writeReg i v).cpsr = s.cpsr := writeRegMode_cpsr s _ i v
@[simp] theorem writeReg_spsrs (s : State) (i : RegNum) (v : Word) : (s.writeReg i v).spsrs = s.spsrs := writeRegMode_spsrs s _ i v
@[simp] theorem writeReg_pc (s : State) (i : RegNum) (v : Word) : (s.writeReg i v).pc = s.pc := writeRegMode_pc s _ i v
@[simp] theorem writeReg_cycles (s : State) (i : RegNum) (v : Word) : (s.writeReg i v).cycles = s.cycles := writeRegMode_cycles s _ i v
@[simp] theorem writeReg_userBankHazard (s : State) (i : RegNum) (v : Word) : (s.writeReg i v).userBankHazard = s.userBankHazard := writeRegMode_userBankHazard s _ i v
@[simp] theorem writeReg_mem (s : State) (i : RegNum) (v : Word) : (s.writeReg i v).mem = s.mem := writeRegMode_mem s _ i v
@[simp] theorem writeReg_io (s : State) (i : RegNum) (v : Word) : (s.writeReg i v).io = s.io := writeRegMode_io s _ i v
@[simp] theorem writeReg_bg2xInt (s : State) (i : RegNum) (v : Word) : (s.writeReg i v).bg2xInt = s.bg2xInt := writeRegMode_bg2xInt s _ i v
@[simp] theorem writeReg_bg2yInt (s : State) (i : RegNum) (v : Word) : (s.writeReg i v).bg2yInt = s.bg2yInt := writeRegMode_bg2yInt s _ i v
@[simp] theorem writeReg_bg3xInt (s : State) (i : RegNum) (v : Word) : (s.writeReg i v).bg3xInt = s.bg3xInt := writeRegMode_bg3xInt s _ i v
@[simp] theorem writeReg_bg3yInt (s : State) (i : RegNum) (v : Word) : (s.writeReg i v).bg3yInt = s.bg3yInt := writeRegMode_bg3yInt s _ i v
@[simp] theorem writeReg_bgLine (s : State) (i : RegNum) (v : Word) : (s.writeReg i v).bgLine = s.bgLine := writeRegMode_bgLine s _ i v
@[simp] theorem writeReg_bgPresent (s : State) (i : RegNum) (v : Word) : (s.writeReg i v).bgPresent = s.bgPresent := writeRegMode_bgPresent s _ i v
@[simp] theorem writeReg_objLine (s : State) (i : RegNum) (v : Word) : (s.writeReg i v).objLine = s.objLine := writeRegMode_objLine s _ i v
@[simp] theorem writeReg_objMeta (s : State) (i : RegNum) (v : Word) : (s.writeReg i v).objMeta = s.objMeta := writeRegMode_objMeta s _ i v
@[simp] theorem writeReg_frame (s : State) (i : RegNum) (v : Word) : (s.writeReg i v).frame = s.frame := writeRegMode_frame s _ i v
@[simp] theorem writeReg_envEvents (s : State) (i : RegNum) (v : Word) : (s.writeReg i v).envEvents = s.envEvents := writeRegMode_envEvents s _ i v
@[simp] theorem writeReg_schedule (s : State) (i : RegNum) (v : Word) : (s.writeReg i v).schedule = s.schedule := writeRegMode_schedule s _ i v
@[simp] theorem writeReg_draws (s : State) (i : RegNum) (v : Word) : (s.writeReg i v).draws = s.draws := writeRegMode_draws s _ i v
@[simp] theorem writeReg_powerOns (s : State) (i : RegNum) (v : Word) : (s.writeReg i v).powerOns = s.powerOns := writeRegMode_powerOns s _ i v
@[simp] theorem writeReg_line (s : State) (i : RegNum) (v : Word) : (s.writeReg i v).line = s.line := writeRegMode_line s _ i v
@[simp] theorem writeReg_phase (s : State) (i : RegNum) (v : Word) : (s.writeReg i v).phase = s.phase := writeRegMode_phase s _ i v

/-! ### setLow -/

@[simp] theorem setLow_cpsr (s : State) (r : LowReg) (v : Word) : (s.setLow r v).cpsr = s.cpsr := writeReg_cpsr s _ v
@[simp] theorem setLow_spsrs (s : State) (r : LowReg) (v : Word) : (s.setLow r v).spsrs = s.spsrs := writeReg_spsrs s _ v
@[simp] theorem setLow_pc (s : State) (r : LowReg) (v : Word) : (s.setLow r v).pc = s.pc := writeReg_pc s _ v
@[simp] theorem setLow_cycles (s : State) (r : LowReg) (v : Word) : (s.setLow r v).cycles = s.cycles := writeReg_cycles s _ v
@[simp] theorem setLow_userBankHazard (s : State) (r : LowReg) (v : Word) : (s.setLow r v).userBankHazard = s.userBankHazard := writeReg_userBankHazard s _ v
@[simp] theorem setLow_mem (s : State) (r : LowReg) (v : Word) : (s.setLow r v).mem = s.mem := writeReg_mem s _ v
@[simp] theorem setLow_io (s : State) (r : LowReg) (v : Word) : (s.setLow r v).io = s.io := writeReg_io s _ v
@[simp] theorem setLow_bg2xInt (s : State) (r : LowReg) (v : Word) : (s.setLow r v).bg2xInt = s.bg2xInt := writeReg_bg2xInt s _ v
@[simp] theorem setLow_bg2yInt (s : State) (r : LowReg) (v : Word) : (s.setLow r v).bg2yInt = s.bg2yInt := writeReg_bg2yInt s _ v
@[simp] theorem setLow_bg3xInt (s : State) (r : LowReg) (v : Word) : (s.setLow r v).bg3xInt = s.bg3xInt := writeReg_bg3xInt s _ v
@[simp] theorem setLow_bg3yInt (s : State) (r : LowReg) (v : Word) : (s.setLow r v).bg3yInt = s.bg3yInt := writeReg_bg3yInt s _ v
@[simp] theorem setLow_bgLine (s : State) (r : LowReg) (v : Word) : (s.setLow r v).bgLine = s.bgLine := writeReg_bgLine s _ v
@[simp] theorem setLow_bgPresent (s : State) (r : LowReg) (v : Word) : (s.setLow r v).bgPresent = s.bgPresent := writeReg_bgPresent s _ v
@[simp] theorem setLow_objLine (s : State) (r : LowReg) (v : Word) : (s.setLow r v).objLine = s.objLine := writeReg_objLine s _ v
@[simp] theorem setLow_objMeta (s : State) (r : LowReg) (v : Word) : (s.setLow r v).objMeta = s.objMeta := writeReg_objMeta s _ v
@[simp] theorem setLow_frame (s : State) (r : LowReg) (v : Word) : (s.setLow r v).frame = s.frame := writeReg_frame s _ v
@[simp] theorem setLow_envEvents (s : State) (r : LowReg) (v : Word) : (s.setLow r v).envEvents = s.envEvents := writeReg_envEvents s _ v
@[simp] theorem setLow_schedule (s : State) (r : LowReg) (v : Word) : (s.setLow r v).schedule = s.schedule := writeReg_schedule s _ v
@[simp] theorem setLow_draws (s : State) (r : LowReg) (v : Word) : (s.setLow r v).draws = s.draws := writeReg_draws s _ v
@[simp] theorem setLow_powerOns (s : State) (r : LowReg) (v : Word) : (s.setLow r v).powerOns = s.powerOns := writeReg_powerOns s _ v
@[simp] theorem setLow_line (s : State) (r : LowReg) (v : Word) : (s.setLow r v).line = s.line := writeReg_line s _ v
@[simp] theorem setLow_phase (s : State) (r : LowReg) (v : Word) : (s.setLow r v).phase = s.phase := writeReg_phase s _ v

/-! ### reloadAffine -/

@[simp] theorem reloadAffine_regs (s : State) (r : IoReg) : (s.reloadAffine r).regs = s.regs := by cases r <;> rfl
@[simp] theorem reloadAffine_cpsr (s : State) (r : IoReg) : (s.reloadAffine r).cpsr = s.cpsr := by cases r <;> rfl
@[simp] theorem reloadAffine_spsrs (s : State) (r : IoReg) : (s.reloadAffine r).spsrs = s.spsrs := by cases r <;> rfl
@[simp] theorem reloadAffine_pc (s : State) (r : IoReg) : (s.reloadAffine r).pc = s.pc := by cases r <;> rfl
@[simp] theorem reloadAffine_cycles (s : State) (r : IoReg) : (s.reloadAffine r).cycles = s.cycles := by cases r <;> rfl
@[simp] theorem reloadAffine_userBankHazard (s : State) (r : IoReg) : (s.reloadAffine r).userBankHazard = s.userBankHazard := by cases r <;> rfl
@[simp] theorem reloadAffine_mem (s : State) (r : IoReg) : (s.reloadAffine r).mem = s.mem := by cases r <;> rfl
@[simp] theorem reloadAffine_io (s : State) (r : IoReg) : (s.reloadAffine r).io = s.io := by cases r <;> rfl
@[simp] theorem reloadAffine_bgLine (s : State) (r : IoReg) : (s.reloadAffine r).bgLine = s.bgLine := by cases r <;> rfl
@[simp] theorem reloadAffine_bgPresent (s : State) (r : IoReg) : (s.reloadAffine r).bgPresent = s.bgPresent := by cases r <;> rfl
@[simp] theorem reloadAffine_objLine (s : State) (r : IoReg) : (s.reloadAffine r).objLine = s.objLine := by cases r <;> rfl
@[simp] theorem reloadAffine_objMeta (s : State) (r : IoReg) : (s.reloadAffine r).objMeta = s.objMeta := by cases r <;> rfl
@[simp] theorem reloadAffine_frame (s : State) (r : IoReg) : (s.reloadAffine r).frame = s.frame := by cases r <;> rfl
@[simp] theorem reloadAffine_envEvents (s : State) (r : IoReg) : (s.reloadAffine r).envEvents = s.envEvents := by cases r <;> rfl
@[simp] theorem reloadAffine_schedule (s : State) (r : IoReg) : (s.reloadAffine r).schedule = s.schedule := by cases r <;> rfl
@[simp] theorem reloadAffine_draws (s : State) (r : IoReg) : (s.reloadAffine r).draws = s.draws := by cases r <;> rfl
@[simp] theorem reloadAffine_powerOns (s : State) (r : IoReg) : (s.reloadAffine r).powerOns = s.powerOns := by cases r <;> rfl
@[simp] theorem reloadAffine_line (s : State) (r : IoReg) : (s.reloadAffine r).line = s.line := by cases r <;> rfl
@[simp] theorem reloadAffine_phase (s : State) (r : IoReg) : (s.reloadAffine r).phase = s.phase := by cases r <;> rfl

/-! ### writeback -/

@[simp] theorem writeback_cpsr (s : State) (wb : Bool) (rn : RegNum) (v : Word) : (s.writeback wb rn v).cpsr = s.cpsr := by unfold State.writeback; split <;> simp
@[simp] theorem writeback_spsrs (s : State) (wb : Bool) (rn : RegNum) (v : Word) : (s.writeback wb rn v).spsrs = s.spsrs := by unfold State.writeback; split <;> simp
@[simp] theorem writeback_pc (s : State) (wb : Bool) (rn : RegNum) (v : Word) : (s.writeback wb rn v).pc = s.pc := by unfold State.writeback; split <;> simp
@[simp] theorem writeback_cycles (s : State) (wb : Bool) (rn : RegNum) (v : Word) : (s.writeback wb rn v).cycles = s.cycles := by unfold State.writeback; split <;> simp
@[simp] theorem writeback_userBankHazard (s : State) (wb : Bool) (rn : RegNum) (v : Word) : (s.writeback wb rn v).userBankHazard = s.userBankHazard := by unfold State.writeback; split <;> simp
@[simp] theorem writeback_mem (s : State) (wb : Bool) (rn : RegNum) (v : Word) : (s.writeback wb rn v).mem = s.mem := by unfold State.writeback; split <;> simp
@[simp] theorem writeback_io (s : State) (wb : Bool) (rn : RegNum) (v : Word) : (s.writeback wb rn v).io = s.io := by unfold State.writeback; split <;> simp
@[simp] theorem writeback_bg2xInt (s : State) (wb : Bool) (rn : RegNum) (v : Word) : (s.writeback wb rn v).bg2xInt = s.bg2xInt := by unfold State.writeback; split <;> simp
@[simp] theorem writeback_bg2yInt (s : State) (wb : Bool) (rn : RegNum) (v : Word) : (s.writeback wb rn v).bg2yInt = s.bg2yInt := by unfold State.writeback; split <;> simp
@[simp] theorem writeback_bg3xInt (s : State) (wb : Bool) (rn : RegNum) (v : Word) : (s.writeback wb rn v).bg3xInt = s.bg3xInt := by unfold State.writeback; split <;> simp
@[simp] theorem writeback_bg3yInt (s : State) (wb : Bool) (rn : RegNum) (v : Word) : (s.writeback wb rn v).bg3yInt = s.bg3yInt := by unfold State.writeback; split <;> simp
@[simp] theorem writeback_bgLine (s : State) (wb : Bool) (rn : RegNum) (v : Word) : (s.writeback wb rn v).bgLine = s.bgLine := by unfold State.writeback; split <;> simp
@[simp] theorem writeback_bgPresent (s : State) (wb : Bool) (rn : RegNum) (v : Word) : (s.writeback wb rn v).bgPresent = s.bgPresent := by unfold State.writeback; split <;> simp
@[simp] theorem writeback_objLine (s : State) (wb : Bool) (rn : RegNum) (v : Word) : (s.writeback wb rn v).objLine = s.objLine := by unfold State.writeback; split <;> simp
@[simp] theorem writeback_objMeta (s : State) (wb : Bool) (rn : RegNum) (v : Word) : (s.writeback wb rn v).objMeta = s.objMeta := by unfold State.writeback; split <;> simp
@[simp] theorem writeback_frame (s : State) (wb : Bool) (rn : RegNum) (v : Word) : (s.writeback wb rn v).frame = s.frame := by unfold State.writeback; split <;> simp
@[simp] theorem writeback_envEvents (s : State) (wb : Bool) (rn : RegNum) (v : Word) : (s.writeback wb rn v).envEvents = s.envEvents := by unfold State.writeback; split <;> simp
@[simp] theorem writeback_schedule (s : State) (wb : Bool) (rn : RegNum) (v : Word) : (s.writeback wb rn v).schedule = s.schedule := by unfold State.writeback; split <;> simp
@[simp] theorem writeback_draws (s : State) (wb : Bool) (rn : RegNum) (v : Word) : (s.writeback wb rn v).draws = s.draws := by unfold State.writeback; split <;> simp
@[simp] theorem writeback_powerOns (s : State) (wb : Bool) (rn : RegNum) (v : Word) : (s.writeback wb rn v).powerOns = s.powerOns := by unfold State.writeback; split <;> simp
@[simp] theorem writeback_line (s : State) (wb : Bool) (rn : RegNum) (v : Word) : (s.writeback wb rn v).line = s.line := by unfold State.writeback; split <;> simp
@[simp] theorem writeback_phase (s : State) (wb : Bool) (rn : RegNum) (v : Word) : (s.writeback wb rn v).phase = s.phase := by unfold State.writeback; split <;> simp

/-! ### blockWriteback -/

@[simp] theorem blockWriteback_cpsr (s : State) (w u : Bool) (rn : RegNum) (rlist : BitVec 16) (base : Word) : (blockWriteback w u rn rlist base s).cpsr = s.cpsr := by unfold blockWriteback; split <;> simp
@[simp] theorem blockWriteback_spsrs (s : State) (w u : Bool) (rn : RegNum) (rlist : BitVec 16) (base : Word) : (blockWriteback w u rn rlist base s).spsrs = s.spsrs := by unfold blockWriteback; split <;> simp
@[simp] theorem blockWriteback_pc (s : State) (w u : Bool) (rn : RegNum) (rlist : BitVec 16) (base : Word) : (blockWriteback w u rn rlist base s).pc = s.pc := by unfold blockWriteback; split <;> simp
@[simp] theorem blockWriteback_cycles (s : State) (w u : Bool) (rn : RegNum) (rlist : BitVec 16) (base : Word) : (blockWriteback w u rn rlist base s).cycles = s.cycles := by unfold blockWriteback; split <;> simp
@[simp] theorem blockWriteback_userBankHazard (s : State) (w u : Bool) (rn : RegNum) (rlist : BitVec 16) (base : Word) : (blockWriteback w u rn rlist base s).userBankHazard = s.userBankHazard := by unfold blockWriteback; split <;> simp
@[simp] theorem blockWriteback_mem (s : State) (w u : Bool) (rn : RegNum) (rlist : BitVec 16) (base : Word) : (blockWriteback w u rn rlist base s).mem = s.mem := by unfold blockWriteback; split <;> simp
@[simp] theorem blockWriteback_io (s : State) (w u : Bool) (rn : RegNum) (rlist : BitVec 16) (base : Word) : (blockWriteback w u rn rlist base s).io = s.io := by unfold blockWriteback; split <;> simp
@[simp] theorem blockWriteback_bg2xInt (s : State) (w u : Bool) (rn : RegNum) (rlist : BitVec 16) (base : Word) : (blockWriteback w u rn rlist base s).bg2xInt = s.bg2xInt := by unfold blockWriteback; split <;> simp
@[simp] theorem blockWriteback_bg2yInt (s : State) (w u : Bool) (rn : RegNum) (rlist : BitVec 16) (base : Word) : (blockWriteback w u rn rlist base s).bg2yInt = s.bg2yInt := by unfold blockWriteback; split <;> simp
@[simp] theorem blockWriteback_bg3xInt (s : State) (w u : Bool) (rn : RegNum) (rlist : BitVec 16) (base : Word) : (blockWriteback w u rn rlist base s).bg3xInt = s.bg3xInt := by unfold blockWriteback; split <;> simp
@[simp] theorem blockWriteback_bg3yInt (s : State) (w u : Bool) (rn : RegNum) (rlist : BitVec 16) (base : Word) : (blockWriteback w u rn rlist base s).bg3yInt = s.bg3yInt := by unfold blockWriteback; split <;> simp
@[simp] theorem blockWriteback_bgLine (s : State) (w u : Bool) (rn : RegNum) (rlist : BitVec 16) (base : Word) : (blockWriteback w u rn rlist base s).bgLine = s.bgLine := by unfold blockWriteback; split <;> simp
@[simp] theorem blockWriteback_bgPresent (s : State) (w u : Bool) (rn : RegNum) (rlist : BitVec 16) (base : Word) : (blockWriteback w u rn rlist base s).bgPresent = s.bgPresent := by unfold blockWriteback; split <;> simp
@[simp] theorem blockWriteback_objLine (s : State) (w u : Bool) (rn : RegNum) (rlist : BitVec 16) (base : Word) : (blockWriteback w u rn rlist base s).objLine = s.objLine := by unfold blockWriteback; split <;> simp
@[simp] theorem blockWriteback_objMeta (s : State) (w u : Bool) (rn : RegNum) (rlist : BitVec 16) (base : Word) : (blockWriteback w u rn rlist base s).objMeta = s.objMeta := by unfold blockWriteback; split <;> simp
@[simp] theorem blockWriteback_frame (s : State) (w u : Bool) (rn : RegNum) (rlist : BitVec 16) (base : Word) : (blockWriteback w u rn rlist base s).frame = s.frame := by unfold blockWriteback; split <;> simp
@[simp] theorem blockWriteback_envEvents (s : State) (w u : Bool) (rn : RegNum) (rlist : BitVec 16) (base : Word) : (blockWriteback w u rn rlist base s).envEvents = s.envEvents := by unfold blockWriteback; split <;> simp
@[simp] theorem blockWriteback_schedule (s : State) (w u : Bool) (rn : RegNum) (rlist : BitVec 16) (base : Word) : (blockWriteback w u rn rlist base s).schedule = s.schedule := by unfold blockWriteback; split <;> simp
@[simp] theorem blockWriteback_draws (s : State) (w u : Bool) (rn : RegNum) (rlist : BitVec 16) (base : Word) : (blockWriteback w u rn rlist base s).draws = s.draws := by unfold blockWriteback; split <;> simp
@[simp] theorem blockWriteback_powerOns (s : State) (w u : Bool) (rn : RegNum) (rlist : BitVec 16) (base : Word) : (blockWriteback w u rn rlist base s).powerOns = s.powerOns := by unfold blockWriteback; split <;> simp
@[simp] theorem blockWriteback_line (s : State) (w u : Bool) (rn : RegNum) (rlist : BitVec 16) (base : Word) : (blockWriteback w u rn rlist base s).line = s.line := by unfold blockWriteback; split <;> simp
@[simp] theorem blockWriteback_phase (s : State) (w u : Bool) (rn : RegNum) (rlist : BitVec 16) (base : Word) : (blockWriteback w u rn rlist base s).phase = s.phase := by unfold blockWriteback; split <;> simp

/-! ### writeListed -/

@[simp] theorem writeListed_cpsr (s : State) (m : Mode) (l : List (RegNum × Word)) : (s.writeListed m l).cpsr = s.cpsr := by
  induction l generalizing s with
  | nil => rfl
  | cons x l ih => exact (ih _).trans (writeRegMode_cpsr s m x.1 x.2)
@[simp] theorem writeListed_spsrs (s : State) (m : Mode) (l : List (RegNum × Word)) : (s.writeListed m l).spsrs = s.spsrs := by
  induction l generalizing s with
  | nil => rfl
  | cons x l ih => exact (ih _).trans (writeRegMode_spsrs s m x.1 x.2)
@[simp] theorem writeListed_pc (s : State) (m : Mode) (l : List (RegNum × Word)) : (s.writeListed m l).pc = s.pc := by
  induction l generalizing s with
  | nil => rfl
  | cons x l ih => exact (ih _).trans (writeRegMode_pc s m x.1 x.2)
@[simp] theorem writeListed_cycles (s : State) (m : Mode) (l : List (RegNum × Word)) : (s.writeListed m l).cycles = s.cycles := by
  induction l generalizing s with
  | nil => rfl
  | cons x l ih => exact (ih _).trans (writeRegMode_cycles s m x.1 x.2)
@[simp] theorem writeListed_userBankHazard (s : State) (m : Mode) (l : List (RegNum × Word)) : (s.writeListed m l).userBankHazard = s.userBankHazard := by
  induction l generalizing s with
  | nil => rfl
  | cons x l ih => exact (ih _).trans (writeRegMode_userBankHazard s m x.1 x.2)
@[simp] theorem writeListed_mem (s : State) (m : Mode) (l : List (RegNum × Word)) : (s.writeListed m l).mem = s.mem := by
  induction l generalizing s with
  | nil => rfl
  | cons x l ih => exact (ih _).trans (writeRegMode_mem s m x.1 x.2)
@[simp] theorem writeListed_io (s : State) (m : Mode) (l : List (RegNum × Word)) : (s.writeListed m l).io = s.io := by
  induction l generalizing s with
  | nil => rfl
  | cons x l ih => exact (ih _).trans (writeRegMode_io s m x.1 x.2)
@[simp] theorem writeListed_bg2xInt (s : State) (m : Mode) (l : List (RegNum × Word)) : (s.writeListed m l).bg2xInt = s.bg2xInt := by
  induction l generalizing s with
  | nil => rfl
  | cons x l ih => exact (ih _).trans (writeRegMode_bg2xInt s m x.1 x.2)
@[simp] theorem writeListed_bg2yInt (s : State) (m : Mode) (l : List (RegNum × Word)) : (s.writeListed m l).bg2yInt = s.bg2yInt := by
  induction l generalizing s with
  | nil => rfl
  | cons x l ih => exact (ih _).trans (writeRegMode_bg2yInt s m x.1 x.2)
@[simp] theorem writeListed_bg3xInt (s : State) (m : Mode) (l : List (RegNum × Word)) : (s.writeListed m l).bg3xInt = s.bg3xInt := by
  induction l generalizing s with
  | nil => rfl
  | cons x l ih => exact (ih _).trans (writeRegMode_bg3xInt s m x.1 x.2)
@[simp] theorem writeListed_bg3yInt (s : State) (m : Mode) (l : List (RegNum × Word)) : (s.writeListed m l).bg3yInt = s.bg3yInt := by
  induction l generalizing s with
  | nil => rfl
  | cons x l ih => exact (ih _).trans (writeRegMode_bg3yInt s m x.1 x.2)
@[simp] theorem writeListed_bgLine (s : State) (m : Mode) (l : List (RegNum × Word)) : (s.writeListed m l).bgLine = s.bgLine := by
  induction l generalizing s with
  | nil => rfl
  | cons x l ih => exact (ih _).trans (writeRegMode_bgLine s m x.1 x.2)
@[simp] theorem writeListed_bgPresent (s : State) (m : Mode) (l : List (RegNum × Word)) : (s.writeListed m l).bgPresent = s.bgPresent := by
  induction l generalizing s with
  | nil => rfl
  | cons x l ih => exact (ih _).trans (writeRegMode_bgPresent s m x.1 x.2)
@[simp] theorem writeListed_objLine (s : State) (m : Mode) (l : List (RegNum × Word)) : (s.writeListed m l).objLine = s.objLine := by
  induction l generalizing s with
  | nil => rfl
  | cons x l ih => exact (ih _).trans (writeRegMode_objLine s m x.1 x.2)
@[simp] theorem writeListed_objMeta (s : State) (m : Mode) (l : List (RegNum × Word)) : (s.writeListed m l).objMeta = s.objMeta := by
  induction l generalizing s with
  | nil => rfl
  | cons x l ih => exact (ih _).trans (writeRegMode_objMeta s m x.1 x.2)
@[simp] theorem writeListed_frame (s : State) (m : Mode) (l : List (RegNum × Word)) : (s.writeListed m l).frame = s.frame := by
  induction l generalizing s with
  | nil => rfl
  | cons x l ih => exact (ih _).trans (writeRegMode_frame s m x.1 x.2)
@[simp] theorem writeListed_envEvents (s : State) (m : Mode) (l : List (RegNum × Word)) : (s.writeListed m l).envEvents = s.envEvents := by
  induction l generalizing s with
  | nil => rfl
  | cons x l ih => exact (ih _).trans (writeRegMode_envEvents s m x.1 x.2)
@[simp] theorem writeListed_schedule (s : State) (m : Mode) (l : List (RegNum × Word)) : (s.writeListed m l).schedule = s.schedule := by
  induction l generalizing s with
  | nil => rfl
  | cons x l ih => exact (ih _).trans (writeRegMode_schedule s m x.1 x.2)
@[simp] theorem writeListed_draws (s : State) (m : Mode) (l : List (RegNum × Word)) : (s.writeListed m l).draws = s.draws := by
  induction l generalizing s with
  | nil => rfl
  | cons x l ih => exact (ih _).trans (writeRegMode_draws s m x.1 x.2)
@[simp] theorem writeListed_powerOns (s : State) (m : Mode) (l : List (RegNum × Word)) : (s.writeListed m l).powerOns = s.powerOns := by
  induction l generalizing s with
  | nil => rfl
  | cons x l ih => exact (ih _).trans (writeRegMode_powerOns s m x.1 x.2)
@[simp] theorem writeListed_line (s : State) (m : Mode) (l : List (RegNum × Word)) : (s.writeListed m l).line = s.line := by
  induction l generalizing s with
  | nil => rfl
  | cons x l ih => exact (ih _).trans (writeRegMode_line s m x.1 x.2)
@[simp] theorem writeListed_phase (s : State) (m : Mode) (l : List (RegNum × Word)) : (s.writeListed m l).phase = s.phase := by
  induction l generalizing s with
  | nil => rfl
  | cons x l ih => exact (ih _).trans (writeRegMode_phase s m x.1 x.2)

/-! ### enterException -/

@[simp] theorem enterException_cpsr (s : State) (k : ExceptionKind) (ret : Word) : (s.enterException k ret).cpsr = { s.cpsr with i := true, t := false, mode := k.mode } := rfl
@[simp] theorem enterException_spsrs (s : State) (k : ExceptionKind) (ret : Word) : (s.enterException k ret).spsrs = s.spsrs.set k.mode s.cpsr.toWord := rfl
@[simp] theorem enterException_pc (s : State) (k : ExceptionKind) (ret : Word) : (s.enterException k ret).pc = k.vector := rfl
@[simp] theorem enterException_cycles (s : State) (k : ExceptionKind) (ret : Word) : (s.enterException k ret).cycles = s.cycles := by simp [State.enterException]
@[simp] theorem enterException_userBankHazard (s : State) (k : ExceptionKind) (ret : Word) : (s.enterException k ret).userBankHazard = false := rfl
@[simp] theorem enterException_mem (s : State) (k : ExceptionKind) (ret : Word) : (s.enterException k ret).mem = s.mem := by simp [State.enterException]
@[simp] theorem enterException_io (s : State) (k : ExceptionKind) (ret : Word) : (s.enterException k ret).io = s.io := by simp [State.enterException]
@[simp] theorem enterException_bg2xInt (s : State) (k : ExceptionKind) (ret : Word) : (s.enterException k ret).bg2xInt = s.bg2xInt := by simp [State.enterException]
@[simp] theorem enterException_bg2yInt (s : State) (k : ExceptionKind) (ret : Word) : (s.enterException k ret).bg2yInt = s.bg2yInt := by simp [State.enterException]
@[simp] theorem enterException_bg3xInt (s : State) (k : ExceptionKind) (ret : Word) : (s.enterException k ret).bg3xInt = s.bg3xInt := by simp [State.enterException]
@[simp] theorem enterException_bg3yInt (s : State) (k : ExceptionKind) (ret : Word) : (s.enterException k ret).bg3yInt = s.bg3yInt := by simp [State.enterException]
@[simp] theorem enterException_bgLine (s : State) (k : ExceptionKind) (ret : Word) : (s.enterException k ret).bgLine = s.bgLine := by simp [State.enterException]
@[simp] theorem enterException_bgPresent (s : State) (k : ExceptionKind) (ret : Word) : (s.enterException k ret).bgPresent = s.bgPresent := by simp [State.enterException]
@[simp] theorem enterException_objLine (s : State) (k : ExceptionKind) (ret : Word) : (s.enterException k ret).objLine = s.objLine := by simp [State.enterException]
@[simp] theorem enterException_objMeta (s : State) (k : ExceptionKind) (ret : Word) : (s.enterException k ret).objMeta = s.objMeta := by simp [State.enterException]
@[simp] theorem enterException_frame (s : State) (k : ExceptionKind) (ret : Word) : (s.enterException k ret).frame = s.frame := by simp [State.enterException]
@[simp] theorem enterException_envEvents (s : State) (k : ExceptionKind) (ret : Word) : (s.enterException k ret).envEvents = s.envEvents := by simp [State.enterException]
@[simp] theorem enterException_schedule (s : State) (k : ExceptionKind) (ret : Word) : (s.enterException k ret).schedule = s.schedule := by simp [State.enterException]
@[simp] theorem enterException_draws (s : State) (k : ExceptionKind) (ret : Word) : (s.enterException k ret).draws = s.draws := by simp [State.enterException]
@[simp] theorem enterException_powerOns (s : State) (k : ExceptionKind) (ret : Word) : (s.enterException k ret).powerOns = s.powerOns := by simp [State.enterException]
@[simp] theorem enterException_line (s : State) (k : ExceptionKind) (ret : Word) : (s.enterException k ret).line = s.line := by simp [State.enterException]
@[simp] theorem enterException_phase (s : State) (k : ExceptionKind) (ret : Word) : (s.enterException k ret).phase = s.phase := by simp [State.enterException]

end Sys2Proof.Machine
end

