-- ==== Sys2Proof/Laws/Memory.lean ====
section
/-! SUPPORT. Laws/Memory.lean: the memory list: read after write, and the canonical form every operation keeps. -/

namespace Sys2Proof.Machine

/-! ### Read after write -/

theorem get?_set_same (m : List Host.Cell) (k : Nat) (v : Byte) : Memory.get? (Memory.set m k v) k = some v := by
  induction m with
  | nil => simp [Memory.set, Memory.get?]
  | cons c m ih =>
    obtain ⟨a, b⟩ := c
    simp only [Memory.set]
    split
    · simp [Memory.get?]
    · split
      · simp [Memory.get?]
      · simp only [Memory.get?, ih]
        split
        · omega
        · rfl

theorem get?_set_ne (m : List Host.Cell) (k j : Nat) (v : Byte) (h : j ≠ k) :
    Memory.get? (Memory.set m k v) j = Memory.get? m j := by
  induction m with
  | nil => simp only [Memory.set, Memory.get?]; split_ifs <;> rfl
  | cons c m ih =>
    simp only [Memory.set]
    split_ifs <;> simp only [Memory.get?] <;> split_ifs <;> first | rfl | exact ih | omega

/-- Writing cells leaves every other key alone. -/
theorem get?_foldl_set (cells : List Host.Cell) (m : List Host.Cell) (j : Nat) (h : ∀ c ∈ cells, c.1 ≠ j) :
    Memory.get? (cells.foldl (fun m c => Memory.set m c.1 c.2) m) j = Memory.get? m j := by
  induction cells generalizing m with
  | nil => rfl
  | cons c cells ih =>
    rw [List.foldl_cons, ih _ fun d hd => h d (List.mem_cons_of_mem _ hd)]
    exact get?_set_ne m c.1 j c.2 fun e => h c List.mem_cons_self e.symm

/-! ### The canonical form -/

/-- A bound below every key of a list. -/
def Memory.below (k : Nat) (m : List Host.Cell) : Bool := m.all fun c => decide (k < c.1)

theorem rising_cons (c : Host.Cell) (m : List Host.Cell) :
    Memory.rising (c :: m) = true ↔ Memory.rising m = true ∧ Memory.below c.1 m = true := by
  induction m generalizing c with
  | nil => simp [Memory.rising, Memory.below]
  | cons d m ih =>
    have hd := ih d
    simp only [Memory.rising, Bool.and_eq_true, decide_eq_true_eq, Memory.below, List.all_cons, List.all_eq_true] at hd ⊢
    constructor
    · rintro ⟨h, hm⟩
      refine ⟨hm, h, fun x hx => ?_⟩
      have := (hd.mp hm).2 x hx
      omega
    · rintro ⟨hm, h, _⟩
      exact ⟨h, hm⟩

theorem below_set (m : List Host.Cell) (i k : Nat) (v : Byte) (hm : Memory.below i m = true) (h : i < k) :
    Memory.below i (Memory.set m k v) = true := by
  induction m with
  | nil => simpa [Memory.set, Memory.below] using h
  | cons c m ih =>
    obtain ⟨a, b⟩ := c
    simp only [Memory.below, List.all_cons, Bool.and_eq_true, decide_eq_true_eq] at hm ih
    simp only [Memory.set]
    split
    · simp only [Memory.below, List.all_cons, Bool.and_eq_true, decide_eq_true_eq]
      exact ⟨h, hm⟩
    · split
      · simp only [Memory.below, List.all_cons, Bool.and_eq_true, decide_eq_true_eq]
        exact ⟨h, hm.2⟩
      · simp only [Memory.below, List.all_cons, Bool.and_eq_true, decide_eq_true_eq]
        exact ⟨hm.1, ih hm.2⟩

theorem rising_set (m : List Host.Cell) (k : Nat) (v : Byte) (hm : Memory.rising m = true) :
    Memory.rising (Memory.set m k v) = true := by
  induction m with
  | nil => rfl
  | cons c m ih =>
    obtain ⟨a, b⟩ := c
    have hc := (rising_cons (a, b) m).mp hm
    simp only [Memory.set]
    split
    · rename_i hk
      rw [rising_cons]
      refine ⟨hm, ?_⟩
      have hb := hc.2
      simp only [Memory.below, List.all_cons, List.all_eq_true, Bool.and_eq_true, decide_eq_true_eq] at hb ⊢
      exact ⟨hk, fun x hx => lt_trans hk (hb x hx)⟩
    · split
      · rename_i hk
        rw [rising_cons]
        exact ⟨hc.1, by simpa [hk] using hc.2⟩
      · rw [rising_cons]
        exact ⟨ih hc.1, below_set m a k v hc.2 (by omega)⟩

theorem mem_set (m : List Host.Cell) (k : Nat) (v : Byte) (c : Host.Cell) (h : c ∈ Memory.set m k v) :
    c = (k, v) ∨ c ∈ m := by
  induction m with
  | nil => left; simpa [Memory.set] using h
  | cons d m ih =>
    obtain ⟨a, b⟩ := d
    simp only [Memory.set] at h
    split at h
    · exact List.mem_cons.mp h
    · split at h
      · rcases List.mem_cons.mp h with h | h
        · exact .inl h
        · exact .inr (List.mem_cons_of_mem _ h)
      · rcases List.mem_cons.mp h with h | h
        · exact .inr (h ▸ List.mem_cons_self)
        · rcases ih h with h | h
          · exact .inl h
          · exact .inr (List.mem_cons_of_mem _ h)

/-- Writing a storage byte keeps the canonical form. -/
theorem wf_set (m : List Host.Cell) (k : Nat) (v : Byte) (hm : Memory.wf m = true) (hk : isStorageKey k = true) :
    Memory.wf (Memory.set m k v) = true := by
  simp only [Memory.wf, Bool.and_eq_true, List.all_eq_true] at hm ⊢
  refine ⟨rising_set m k v hm.1, fun c hc => ?_⟩
  rcases mem_set m k v c hc with rfl | hc
  · exact hk
  · exact hm.2 c hc

/-- Writing storage bytes keeps the canonical form. -/
theorem wf_foldl_set (cells m : List Host.Cell) (hm : Memory.wf m = true) (hc : ∀ c ∈ cells, isStorageKey c.1 = true) :
    Memory.wf (cells.foldl (fun m c => Memory.set m c.1 c.2) m) = true := by
  induction cells generalizing m with
  | nil => exact hm
  | cons c cells ih =>
    exact ih _ (wf_set m c.1 c.2 hm (hc c List.mem_cons_self)) fun d hd => hc d (List.mem_cons_of_mem _ hd)

/-- Dropping cells keeps the canonical form (what a reset does to memory). -/
theorem wf_filter (m : List Host.Cell) (p : Host.Cell → Bool) (hm : Memory.wf m = true) :
    Memory.wf (m.filter p) = true := by
  simp only [Memory.wf, Bool.and_eq_true, List.all_eq_true] at hm ⊢
  refine ⟨?_, fun c hc => hm.2 c (List.mem_of_mem_filter hc)⟩
  have key : ∀ l : List Host.Cell, Memory.rising l = true → Memory.rising (l.filter p) = true := by
    intro l hl
    induction l with
    | nil => rfl
    | cons c l ih =>
      have hc := (rising_cons c l).mp hl
      rw [List.filter_cons]
      split
      · rw [rising_cons]
        refine ⟨ih hc.1, ?_⟩
        have hb := hc.2
        simp only [Memory.below, List.all_eq_true] at hb ⊢
        exact fun x hx => hb x (List.mem_of_mem_filter hx)
      · exact ih hc.1
  exact key m hm.1

/-- Equal lookups are equal memories: the form is canonical (log 4 apart, an unlisted byte has no fixed value). -/
theorem wf_ext (m n : List Host.Cell) (hm : Memory.rising m = true) (hn : Memory.rising n = true)
    (h : ∀ k, Memory.get? m k = Memory.get? n k) : m = n := by
  have none_of_below : ∀ (l : List Host.Cell) (k : Nat), Memory.below k l = true → Memory.get? l k = none := by
    intro l k hl
    cases l with
    | nil => rfl
    | cons c l =>
      simp only [Memory.below, List.all_cons, Bool.and_eq_true, decide_eq_true_eq] at hl
      simp [Memory.get?, hl.1]
  induction m generalizing n with
  | nil =>
    cases n with
    | nil => rfl
    | cons d n => simpa [Memory.get?] using h d.1
  | cons c m ih =>
    cases n with
    | nil => simpa [Memory.get?] using h c.1
    | cons d n =>
      obtain ⟨a, x⟩ := c
      obtain ⟨b, y⟩ := d
      have hc := (rising_cons (a, x) m).mp hm
      have hd := (rising_cons (b, y) n).mp hn
      have hab : a = b := by
        rcases lt_trichotomy a b with hl | hl | hl
        · have := h a; simp [Memory.get?, hl] at this
        · exact hl
        · have := h b; simp [Memory.get?, hl] at this
      subst hab
      have hxy : x = y := by simpa [Memory.get?] using h a
      subst hxy
      have htail : ∀ k, Memory.get? m k = Memory.get? n k := by
        intro k
        rcases lt_trichotomy k a with hl | hl | hl
        · rw [none_of_below m k, none_of_below n k]
          · have hb := hd.2
            simp only [Memory.below, List.all_eq_true, decide_eq_true_eq] at hb ⊢
            exact fun z hz => lt_trans hl (hb z hz)
          · have hb := hc.2
            simp only [Memory.below, List.all_eq_true, decide_eq_true_eq] at hb ⊢
            exact fun z hz => lt_trans hl (hb z hz)
        · subst hl
          rw [none_of_below m k hc.2, none_of_below n k hd.2]
        · have := h k
          simpa [Memory.get?, show ¬ k < a by omega, show ¬ k = a by omega] using this
      rw [ih n hc.1 hd.1 htail]

end Sys2Proof.Machine
end

