-- ==== Sys2Proof/Laws/Regions.lean ====
section
/-! SUPPORT. Laws/Regions.lean: regions, storage keys and the bytes a bus write changes (20_memory R152 to R170). -/

namespace Sys2Proof.Machine

/-! ### Regions -/

theorem topByte_toNat (a : Word) : (a.extractLsb' 24 8).toNat = a.toNat / 0x1000000 := by
  have := a.isLt
  rw [BitVec.extractLsb'_toNat, Nat.shiftRight_eq_div_pow]
  omega

/-- A region is made of whole words. -/
theorem regionOf_congr (a b : Word) (h : a.toNat / 4 = b.toNat / 4) : regionOf a = regionOf b := by
  have hd : a.toNat / 0x1000000 = b.toNat / 0x1000000 := by omega
  have h1 : (a.toNat < 0x00004000) = (b.toNat < 0x00004000) := by rw [eq_iff_iff]; omega
  have h2 : (a.toNat < 0x04000400) = (b.toNat < 0x04000400) := by rw [eq_iff_iff]; omega
  unfold regionOf
  simp only [topByte_toNat, hd, h1, h2]

/-- The addresses of a region. -/
def regionBounds (r : Region) (n : Nat) : Prop :=
  match r with
  | .bios => n < 0x4000
  | .ewram => 0x02000000 ≤ n ∧ n < 0x03000000
  | .iwram => 0x03000000 ≤ n ∧ n < 0x04000000
  | .io => 0x04000000 ≤ n ∧ n < 0x04000400
  | .palette => 0x05000000 ≤ n ∧ n < 0x06000000
  | .vram => 0x06000000 ≤ n ∧ n < 0x07000000
  | .oam => 0x07000000 ≤ n ∧ n < 0x08000000
  | .rom => 0x08000000 ≤ n ∧ n < 0x0E000000
  | .sram => 0x0E000000 ≤ n ∧ n < 0x10000000
  | .unmapped => True

/-- An address lies within the bounds of its region. -/
theorem regionOf_bounds (a : Word) (r : Region) (h : regionOf a = r) : regionBounds r a.toNat := by
  have ht := topByte_toNat a
  unfold regionOf at h
  split at h <;> (try split at h) <;> subst h <;> simp only [regionBounds] <;> omega

/-- The last offset of the VRAM array is below 96 KiB (20_memory R165). -/
theorem vramOffset_lt (a : Nat) : vramOffset a < 0x18000 := by
  simp only [vramOffset]
  split <;> omega

/-- The key of an address of a storage region names a storage byte. -/
theorem isStorageKey_keyOf (a : Word) (h : regionOf a ≠ .io) (h' : regionOf a ≠ .unmapped) :
    isStorageKey (keyOf a) = true := by
  have hb := regionOf_bounds a _ rfl
  have hv := vramOffset_lt a.toNat
  unfold keyOf
  generalize regionOf a = r at *
  cases r <;> simp only [keyIn, regionBounds] at hb ⊢ <;>
    first | exact absurd rfl h | exact absurd rfl h' | (simp only [isStorageKey, Bool.or_eq_true, Bool.and_eq_true, decide_eq_true_eq]; omega)

/-! ### Aligned addresses -/

theorem and_wordMask (a : Word) : a &&& 0xFFFFFFFC#32 = a.extractLsb' 2 30 ++ 0#2 := by
  apply BitVec.eq_of_getLsbD_eq
  intro i hi
  simp only [BitVec.getLsbD_and, BitVec.getLsbD_append, BitVec.getLsbD_extractLsb']
  interval_cases i <;> simp

theorem and_halfMask (a : Word) : a &&& 0xFFFFFFFE#32 = a.extractLsb' 1 31 ++ 0#1 := by
  apply BitVec.eq_of_getLsbD_eq
  intro i hi
  simp only [BitVec.getLsbD_and, BitVec.getLsbD_append, BitVec.getLsbD_extractLsb']
  interval_cases i <;> simp

@[simp] theorem alignAddr_byte (a : Word) : alignAddr .byte a = a := rfl

theorem alignAddr_word_toNat (a : Word) : (alignAddr .word a).toNat = a.toNat / 4 * 4 := by
  have := a.isLt
  simp only [alignAddr, and_wordMask]
  rw [BitVec.toNat_append, BitVec.extractLsb'_toNat, Nat.shiftRight_eq_div_pow]
  simp [Nat.shiftLeft_eq]
  omega

theorem alignAddr_half_toNat (a : Word) : (alignAddr .half a).toNat = a.toNat / 2 * 2 := by
  have := a.isLt
  simp only [alignAddr, and_halfMask]
  rw [BitVec.toNat_append, BitVec.extractLsb'_toNat, Nat.shiftRight_eq_div_pow]
  simp [Nat.shiftLeft_eq]
  omega

/-- Aligning an address keeps its region (20_memory R153). -/
@[simp] theorem regionOf_alignAddr (w : Width) (a : Word) : regionOf (alignAddr w a) = regionOf a := by
  cases w
  · rfl
  · exact regionOf_congr _ _ (by rw [alignAddr_half_toNat]; omega)
  · exact regionOf_congr _ _ (by rw [alignAddr_word_toNat]; omega)

theorem toNat_add_small (a : Word) (k : Nat) (h : a.toNat % 4 + k < 4) : (a + BitVec.ofNat 32 k).toNat = a.toNat + k := by
  have := a.isLt
  rw [BitVec.toNat_add, BitVec.toNat_ofNat]
  omega

/-- The bytes of a word are in one region. -/
theorem regionOf_add_small (a : Word) (k : Nat) (h : a.toNat % 4 + k < 4) :
    regionOf (a + BitVec.ofNat 32 k) = regionOf a :=
  regionOf_congr _ _ (by rw [toNat_add_small a k h]; omega)

theorem keyOf_add_small (a : Word) (k : Nat) (h : a.toNat % 4 + k < 4) :
    keyOf (a + BitVec.ofNat 32 k) = keyIn (regionOf a) (a.toNat + k) := by
  rw [keyOf, regionOf_add_small a k h, toNat_add_small a k h]

/-! ### The bytes a write stores -/

theorem mem_byteSpan_region (w : Width) (b a : Word) (hb : alignAddr w b = b) (ha : a ∈ byteSpan w b) :
    regionOf a = regionOf b := by
  have hw := alignAddr_word_toNat b
  have hh := alignAddr_half_toNat b
  cases w <;> simp only [byteSpan, List.mem_cons, List.not_mem_nil, or_false] at ha
  · rw [ha]
  · rw [hb] at hh
    rcases ha with rfl | rfl
    · rfl
    · exact regionOf_add_small b 1 (by omega)
  · rw [hb] at hw
    rcases ha with rfl | rfl | rfl | rfl
    · rfl
    · exact regionOf_add_small b 1 (by omega)
    · exact regionOf_add_small b 2 (by omega)
    · exact regionOf_add_small b 3 (by omega)

/-- The keys of bytes in a row are the keys of their addresses. -/
theorem cellsIn_keys (w : Width) (b v : Word) (hb : alignAddr w b = b) :
    (cellsIn (regionOf b) w b v).map (fun c => c.1) = (byteSpan w b).map keyOf := by
  have hw := alignAddr_word_toNat b
  have hh := alignAddr_half_toNat b
  cases w
  · rfl
  · rw [hb] at hh
    have h1 := keyOf_add_small b 1 (by omega)
    simp only [cellsIn, byteSpan, List.map_cons, List.map_nil]
    rw [← h1]; rfl
  · rw [hb] at hw
    have h1 := keyOf_add_small b 1 (by omega)
    have h2 := keyOf_add_small b 2 (by omega)
    have h3 := keyOf_add_small b 3 (by omega)
    simp only [cellsIn, byteSpan, List.map_cons, List.map_nil]
    rw [← h1, ← h2, ← h3]; rfl

@[simp] theorem alignAddr_idem (w : Width) (a : Word) : alignAddr w (alignAddr w a) = alignAddr w a := by
  cases w
  · rfl
  · apply BitVec.eq_of_toNat_eq; simp only [alignAddr_half_toNat]; omega
  · apply BitVec.eq_of_toNat_eq; simp only [alignAddr_word_toNat]; omega

/-- The regions a write is not discarded by: those of storage other than BIOS and ROM (20_memory R160, R167). -/
def Region.writable (r : Region) : Bool :=
  match r with
  | .ewram => true
  | .iwram => true
  | .palette => true
  | .vram => true
  | .oam => true
  | .sram => true
  | .bios => false
  | .io => false
  | .rom => false
  | .unmapped => false

/-- What a write stores: nothing, or one byte at each stored address, under its key. -/
theorem storedCells_keys (w : Width) (addr v : Word) :
    storedCells w addr v = [] ∨
      (storedCells w addr v).map (fun c => c.1) = (storedAddresses w addr).map keyOf ∧
        (regionOf addr).writable = true := by
  have hal := alignAddr_idem w addr
  have hhalf := alignAddr_idem .half addr
  have ha := cellsIn_keys w (alignAddr w addr) v hal
  have hb := cellsIn_keys .half (alignAddr .half addr) (replicateByte v) hhalf
  rw [regionOf_alignAddr] at ha hb
  simp only [storedCells, storedAddresses, regionOf_alignAddr]
  cases hr : regionOf addr <;> cases w <;> rw [hr] at ha hb <;>
    first | exact .inl rfl | exact .inr ⟨ha, rfl⟩ | exact .inr ⟨hb, rfl⟩

/-- The stored addresses are in the region of the address. -/
theorem storedAddresses_region (w : Width) (addr a : Word) (h : a ∈ storedAddresses w addr) :
    regionOf a = regionOf addr := by
  have key : ∀ w : Width, a ∈ byteSpan w (alignAddr w addr) → regionOf a = regionOf addr := fun w h =>
    (mem_byteSpan_region w _ a (alignAddr_idem w addr) h).trans (regionOf_alignAddr w addr)
  unfold storedAddresses at h
  split at h <;> exact key _ h

/-- A cell written is a byte of the stored addresses, under its key. -/
theorem storedCells_key (w : Width) (addr v : Word) (c : Host.Cell) (hc : c ∈ storedCells w addr v) :
    ∃ a ∈ storedAddresses w addr, c.1 = keyOf a := by
  rcases storedCells_keys w addr v with h | ⟨h, _⟩
  · rw [h] at hc; cases hc
  · have hm : c.1 ∈ (storedAddresses w addr).map keyOf := h ▸ List.mem_map_of_mem hc
    obtain ⟨a, ha, he⟩ := List.mem_map.mp hm
    exact ⟨a, ha, he.symm⟩

/-- Every cell written is a storage byte. -/
theorem storedCells_isStorageKey (w : Width) (addr v : Word) (c : Host.Cell) (hc : c ∈ storedCells w addr v) :
    isStorageKey c.1 = true := by
  rcases storedCells_keys w addr v with h | ⟨_, hw⟩
  · rw [h] at hc; cases hc
  · obtain ⟨a, ha, he⟩ := storedCells_key w addr v c hc
    rw [he]
    have hr := storedAddresses_region w addr a ha
    refine isStorageKey_keyOf a ?_ ?_ <;> rw [hr] <;> intro e <;> rw [e] at hw <;> cases hw

/-- Two different addresses less than 64 bytes apart are different storage bytes. -/
theorem keyOf_ne_of_near (p q : Word) (hne : p ≠ q) (hd : (q - p).toNat < 64) : keyOf p ≠ keyOf q := by
  have hp := regionOf_bounds p _ rfl
  have hq := regionOf_bounds q _ rfl
  have hn : p.toNat ≠ q.toNat := fun h => hne (BitVec.eq_of_toNat_eq h)
  rw [BitVec.toNat_sub] at hd
  have h1 := p.isLt
  have h2 := q.isLt
  generalize ha : p.toNat = a at *
  generalize hb : q.toNat = b at *
  unfold keyOf
  rw [ha, hb]
  cases hr : regionOf p <;> rw [hr] at hp <;> cases hs : regionOf q <;> rw [hs] at hq <;>
    simp only [regionBounds, keyIn, vramOffset] at hp hq ⊢ <;> (try split) <;> (try split) <;> omega

end Sys2Proof.Machine
end

