-- ==== Sys2Proof/Laws/Registers.lean ====
section
/-! SUPPORT. Laws/Registers.lean: reading a register after writing one (10_state R51, R52). -/

namespace Sys2Proof.Machine

/-- The register at a place of the register file. -/
def PhysReg.ofIdx (k : Fin 30) : PhysReg :=
  (#v[.r0, .r1, .r2, .r3, .r4, .r5, .r6, .r7, .r8usr, .r9usr, .r10usr, .r11usr, .r12usr, .r13usr, .r14usr, .r8fiq,
    .r9fiq, .r10fiq, .r11fiq, .r12fiq, .r13fiq, .r14fiq, .r13irq, .r14irq, .r13svc, .r14svc, .r13abt, .r14abt,
    .r13und, .r14und] : Vector PhysReg 30)[k]

theorem PhysReg.ofIdx_idx (p : PhysReg) : PhysReg.ofIdx p.idx = p := by cases p <;> rfl

/-- Every register has its own place. -/
theorem PhysReg.idx_injective (p q : PhysReg) (h : p.idx = q.idx) : p = q := by
  rw [← PhysReg.ofIdx_idx p, h, PhysReg.ofIdx_idx]

@[simp] theorem reg_setReg_same (s : State) (p : PhysReg) (v : Word) : (s.setReg p v).reg p = v := by
  simp [State.reg]

theorem reg_setReg_ne (s : State) (p q : PhysReg) (v : Word) (h : q ≠ p) : (s.setReg p v).reg q = s.reg q := by
  have h' : (p.idx : Nat) ≠ (q.idx : Nat) := fun e => h (PhysReg.idx_injective q p (Fin.ext e.symm))
  simp only [State.reg, setReg_regs]
  exact Vector.getElem_set_ne _ _ h'

/-- A stored register depends on the register file alone. -/
theorem reg_congr {s t : State} (h : t.regs = s.regs) (p : PhysReg) : t.reg p = s.reg p := by
  simp only [State.reg, h]

theorem readRegMode_congr {s t : State} (h : t.regs = s.regs) (m : Mode) (x : Word) (i : RegNum) :
    t.readRegMode m x i = s.readRegMode m x i := by
  simp only [State.readRegMode, State.reg, h]

/-- Register 15 and no other names no stored register. -/
theorem physReg_eq_none : ∀ (m : Mode) (i : RegNum), physReg m i = none ↔ i = 15#4 := by
  intro m; cases m <;> decide +kernel

/-- Two numbers of one mode name different registers. -/
theorem physReg_injective : ∀ (m : Mode) (i j : RegNum) (p : PhysReg),
    physReg m i = some p → physReg m j = some p → i = j := by
  have h : ∀ (m : Mode) (i j : RegNum), physReg m i = physReg m j → i ≠ 15#4 → i = j := by
    intro m; cases m <;> decide +kernel
  intro m i j p hi hj
  refine h m i j (hi.trans hj.symm) fun e => ?_
  rw [(physReg_eq_none m i).mpr e] at hi
  cases hi

theorem physReg_isSome {m : Mode} {i : RegNum} (h : i ≠ 15#4) : ∃ p, physReg m i = some p := by
  cases e : physReg m i with
  | none => exact absurd ((physReg_eq_none m i).mp e) h
  | some p => exact ⟨p, rfl⟩

/-- A write of r15 through the register file writes nothing. -/
@[simp] theorem writeRegMode_pc_number (s : State) (m : Mode) (v : Word) : s.writeRegMode m 15#4 v = s := by
  cases m <;> rfl

@[simp] theorem writeReg_pc_number (s : State) (v : Word) : s.writeReg 15#4 v = s := writeRegMode_pc_number s _ v

theorem readRegMode_writeRegMode_same (s : State) (m : Mode) (x v : Word) (i : RegNum) (h : i ≠ 15#4) :
    (s.writeRegMode m i v).readRegMode m x i = v := by
  obtain ⟨p, hp⟩ := physReg_isSome (m := m) h
  simp [State.writeRegMode, State.readRegMode, hp]

theorem readRegMode_writeRegMode_ne (s : State) (m : Mode) (x v : Word) (i j : RegNum) (h : j ≠ i) :
    (s.writeRegMode m i v).readRegMode m x j = s.readRegMode m x j := by
  unfold State.writeRegMode State.readRegMode
  cases hi : physReg m i with
  | none => rfl
  | some p =>
    cases hj : physReg m j with
    | none => rfl
    | some q =>
      exact reg_setReg_ne s p q v fun e => h (physReg_injective m j i p (e ▸ hj) hi)

theorem reg_writeRegMode_ne (s : State) (m : Mode) (i : RegNum) (v : Word) (p : PhysReg) (h : physReg m i ≠ some p) :
    (s.writeRegMode m i v).reg p = s.reg p := by
  unfold State.writeRegMode
  cases hi : physReg m i with
  | none => rfl
  | some q => exact reg_setReg_ne s q p v fun e => h (e ▸ hi)

/-- Reading a register just written. -/
theorem readReg_writeReg_same (s : State) (x v : Word) (i : RegNum) (h : i ≠ 15#4) :
    (s.writeReg i v).readReg x i = v := by
  simp only [State.readReg, writeReg_cpsr]
  exact readRegMode_writeRegMode_same s _ x v i h

/-- Reading another register than the one just written. -/
theorem readReg_writeReg_ne (s : State) (x v : Word) (i j : RegNum) (h : j ≠ i) :
    (s.writeReg i v).readReg x j = s.readReg x j := by
  simp only [State.readReg, writeReg_cpsr]
  exact readRegMode_writeRegMode_ne s _ x v i j h

/-- A low register is never r15. -/
theorem lowReg_ne_pc (r : LowReg) : lowReg r ≠ 15#4 := by
  revert r; decide +kernel

theorem lowReg_injective (a b : LowReg) (h : lowReg a = lowReg b) : a = b := by
  revert a b; decide +kernel

/-- r15 reads as the value the reader gives for it. -/
@[simp] theorem readRegMode_pc_number (s : State) (m : Mode) (x : Word) : s.readRegMode m x 15#4 = x := by
  cases m <;> rfl

@[simp] theorem readReg_pc_number (s : State) (x : Word) : s.readReg x 15#4 = x := readRegMode_pc_number s _ x

/-- What r15 reads as does not matter for another register. -/
theorem readRegMode_irrelevant (s : State) (m : Mode) (x y : Word) (i : RegNum) (h : i ≠ 15#4) :
    s.readRegMode m x i = s.readRegMode m y i := by
  obtain ⟨p, hp⟩ := physReg_isSome (m := m) h
  simp [State.readRegMode, hp]

theorem readReg_irrelevant (s : State) (x y : Word) (i : RegNum) (h : i ≠ 15#4) : s.readReg x i = s.readReg y i :=
  readRegMode_irrelevant s _ x y i h

/-- A low register reads alike in the two notations. -/
theorem thumbReg_lowReg (s : State) (r : LowReg) : s.thumbReg (lowReg r) = s.low r := rfl

end Sys2Proof.Machine
end

