-- ==== Sys2Proof/Laws/Bus.lean ====
section
/-! SUPPORT. Laws/Bus.lean: what a bus write changes and leaves alone, in storage and in the I/O page (20_memory R150
to R198), and what the data accesses of an instruction answer. -/

namespace Sys2Proof.Machine

/-! ### The I/O table -/

/-- The granule at a place of the table of 20_memory R186. -/
def IoReg.ofIdx (k : Fin 45) : IoReg :=
  (#v[.dispcnt, .dispstat, .vcount, .bg0cnt, .bg1cnt, .bg2cnt, .bg3cnt, .bg0hofs, .bg0vofs, .bg1hofs, .bg1vofs,
    .bg2hofs, .bg2vofs, .bg3hofs, .bg3vofs, .bg2pa, .bg2pb, .bg2pc, .bg2pd, .bg2xl, .bg2xh, .bg2yl, .bg2yh, .bg3pa,
    .bg3pb, .bg3pc, .bg3pd, .bg3xl, .bg3xh, .bg3yl, .bg3yh, .win0h, .win1h, .win0v, .win1v, .winin, .winout, .mosaic,
    .bldcnt, .bldalpha, .bldy, .keyinput, .ie, .if_, .ime] : Vector IoReg 45)[k]

theorem IoReg.ofIdx_idx (r : IoReg) : IoReg.ofIdx r.idx = r := by cases r <;> rfl

/-- Every granule has its own place. -/
theorem IoReg.idx_injective (q r : IoReg) (h : q.idx = r.idx) : q = r := by
  rw [← IoReg.ofIdx_idx q, h, IoReg.ofIdx_idx]

/-- The granule found at an offset is the one of that offset. -/
theorem ioRegAt_offset (o : Nat) (r : IoReg) (h : ioRegAt o = some r) : r.offset = o := by
  unfold ioRegAt at h
  split at h <;> cases h <;> rfl

theorem ioRegAt_of_offset (r : IoReg) : ioRegAt r.offset = some r := by cases r <;> rfl

theorem ioOwner_core (o : Nat) (r : IoReg) : ioOwner o = .core r ↔ ioRegAt o = some r := by
  unfold ioOwner
  cases h : ioRegAt o with
  | some q => simp
  | none => simp only [reduceCtorEq, iff_false]; split <;> simp

@[simp] theorem ioRaw_setIoRaw_same (s : State) (r : IoReg) (v : Half) : (s.setIoRaw r v).ioRaw r = v := by
  simp [State.ioRaw]

theorem ioRaw_setIoRaw_ne (s : State) (q r : IoReg) (v : Half) (h : q ≠ r) : (s.setIoRaw r v).ioRaw q = s.ioRaw q := by
  have h' : (r.idx : Nat) ≠ (q.idx : Nat) := fun e => h (IoReg.idx_injective q r (Fin.ext e.symm))
  simp only [State.ioRaw, setIoRaw_io]
  exact Vector.getElem_set_ne _ _ h'

theorem ioRaw_congr {s t : State} (h : t.io = s.io) (r : IoReg) : t.ioRaw r = s.ioRaw r := by
  simp only [State.ioRaw, h]

/-! ### Writes to the I/O page -/

/-- What an I/O write changes at most: the granules, the internal reference registers, the environment's events. -/
structure KeepsAllButIo (s t : State) : Prop extends KeepsAllButStore s t where
  regs : t.regs = s.regs
  cpsr : t.cpsr = s.cpsr
  pc : t.pc = s.pc
  mem : t.mem = s.mem

theorem ioWrite16_frame (s : State) (o : Nat) (v : Half) : KeepsAllButIo s (s.ioWrite16 o v) := by
  unfold State.ioWrite16
  split <;> constructor <;> (try constructor) <;> simp

theorem ioWrite8_frame (s : State) (o : Nat) (b : Byte) : KeepsAllButIo s (s.ioWrite8 o b) := ioWrite16_frame s _ _

theorem KeepsAllButStore.trans {s t u : State} (h : KeepsAllButStore s t) (g : KeepsAllButStore t u) :
    KeepsAllButStore s u := by
  constructor
  · exact g.spsrs.trans h.spsrs
  · exact g.cycles.trans h.cycles
  · exact g.userBankHazard.trans h.userBankHazard
  · exact g.bgLine.trans h.bgLine
  · exact g.bgPresent.trans h.bgPresent
  · exact g.objLine.trans h.objLine
  · exact g.objMeta.trans h.objMeta
  · exact g.frame.trans h.frame
  · exact g.line.trans h.line
  · exact g.phase.trans h.phase
  · exact g.schedule.trans h.schedule
  · exact g.draws.trans h.draws
  · exact g.powerOns.trans h.powerOns

theorem KeepsAllButIo.trans {s t u : State} (h : KeepsAllButIo s t) (g : KeepsAllButIo t u) : KeepsAllButIo s u :=
  { h.toKeepsAllButStore.trans g.toKeepsAllButStore with
    regs := g.regs.trans h.regs, cpsr := g.cpsr.trans h.cpsr, pc := g.pc.trans h.pc, mem := g.mem.trans h.mem }

theorem ioStore_frame (s : State) (w : Width) (o : Nat) (v : Word) : KeepsAllButIo s (s.ioStore w o v) := by
  cases w
  · exact ioWrite8_frame s o _
  · exact ioWrite16_frame s o _
  · exact (ioWrite16_frame s o _).trans (ioWrite16_frame _ _ _)

/-- The granules other than the one at the offset keep their value. -/
theorem ioRaw_ioWrite16_ne (s : State) (o : Nat) (v : Half) (q : IoReg) (h : q.offset ≠ o) :
    (s.ioWrite16 o v).ioRaw q = s.ioRaw q := by
  unfold State.ioWrite16
  split
  · rename_i r hr
    have hro := ioRegAt_offset o r ((ioOwner_core o r).mp hr)
    rw [ioRaw_congr (reloadAffine_io _ r)]
    exact ioRaw_setIoRaw_ne s q r _ fun e => h (e ▸ hro)
  · rfl
  · rfl

/-- The granule at the offset holds the merged value (20_memory R185, R190). -/
theorem ioRaw_ioWrite16_same (s : State) (v : Half) (r : IoReg) :
    (s.ioWrite16 r.offset v).ioRaw r = ioMerged r (s.ioRaw r) v := by
  unfold State.ioWrite16
  rw [(ioOwner_core r.offset r).mpr (ioRegAt_of_offset r)]
  rw [ioRaw_congr (reloadAffine_io _ r), ioRaw_setIoRaw_same]

/-- A read of the I/O page depends on the granule it lies in and on the draws. -/
theorem ioRead16_congr {s t : State} (o : Nat) (hd : t.draws = s.draws)
    (h : ∀ q : IoReg, q.offset = o → t.ioRaw q = s.ioRaw q) : t.ioRead16 o = s.ioRead16 o := by
  unfold State.ioRead16
  split
  · rename_i r hr
    rw [h r (ioRegAt_offset o r ((ioOwner_core o r).mp hr))]
  · rw [hd]
  · rw [hd]

theorem ioReadByte_ioWrite16_ne (s : State) (o p : Nat) (v : Half) (h : p - p % 2 ≠ o) :
    (s.ioWrite16 o v).ioReadByte p = s.ioReadByte p := by
  have hd : (s.ioWrite16 o v).draws = s.draws := (ioWrite16_frame s o v).draws
  unfold State.ioReadByte
  rw [ioRead16_congr _ hd fun q hq => ioRaw_ioWrite16_ne s o v q (by omega)]

/-- The bits of a granule after a write. -/
theorem ioMerged_getLsbD (r : IoReg) (old v : Half) (i : Nat) (hi : i < 16) :
    (ioMerged r old v).getLsbD i =
      if r = .if_ then old.getLsbD i && !(v.getLsbD i && r.writeMask.getLsbD i)
      else (old.getLsbD i && !r.writeMask.getLsbD i) || (v.getLsbD i && r.writeMask.getLsbD i) := by
  by_cases h : r = .if_
  · subst h
    simp [ioMerged, IoReg.writeMask, hi]
  · have : ioMerged r old v = (old &&& ~~~r.writeMask) ||| (v &&& r.writeMask) := by cases r <;> first | rfl | exact absurd rfl h
    simp [this, h, hi]

theorem mergeByte_getLsbD (h : Half) (b : Byte) (k i : Nat) (hk : k < 2) (hi : i < 16) (hne : i / 8 ≠ k) :
    (mergeByte h b k).getLsbD i = h.getLsbD i := by
  unfold mergeByte
  split
  · have : 8 ≤ i := by omega
    rw [BitVec.getLsbD_append, BitVec.getLsbD_extractLsb']
    simp [show ¬ i < 8 by omega, show i - 8 < 8 by omega, show 8 + (i - 8) = i by omega]
  · rw [BitVec.getLsbD_append, BitVec.getLsbD_extractLsb']
    simp [show i < 8 by omega]

/-- A byte write leaves the other bytes of the I/O page alone (20_memory R185, R190). -/
theorem ioReadByte_ioWrite8_ne (s : State) (o p : Nat) (b : Byte) (h : p ≠ o) :
    (s.ioWrite8 o b).ioReadByte p = s.ioReadByte p := by
  unfold State.ioWrite8
  by_cases hg : p - p % 2 = o - o % 2
  · have hd : ∀ v, (s.ioWrite16 (o - o % 2) v).draws = s.draws := fun v =>
      (ioWrite16_frame s _ v).draws
    unfold State.ioReadByte
    rw [hg]
    have hbits : ∀ i, i < 16 → i / 8 ≠ o % 2 →
        ((s.ioWrite16 (o - o % 2) (mergeByte (s.ioMergeBase (o - o % 2)) b (o % 2))).ioRead16 (o - o % 2)).getLsbD i =
          (s.ioRead16 (o - o % 2)).getLsbD i := by
      intro i hi hne
      cases ho : ioOwner (o - o % 2) with
      | core r =>
        have hro := ioRegAt_offset _ r ((ioOwner_core _ r).mp ho)
        have hraw := ioRaw_ioWrite16_same s (mergeByte (s.ioMergeBase (o - o % 2)) b (o % 2)) r
        rw [hro] at hraw
        have hmb := mergeByte_getLsbD (s.ioMergeBase (o - o % 2)) b (o % 2) i (by omega) hi hne
        simp only [State.ioRead16, ho, hraw, BitVec.getLsbD_and, ioMerged_getLsbD r _ _ i hi, hmb]
        by_cases hif : r = .if_
        · subst hif
          simp [State.ioMergeBase, ho]
        · have hbase : s.ioMergeBase (o - o % 2) = s.ioRaw r := by
            unfold State.ioMergeBase
            rw [ho]
            cases r <;> first | rfl | exact absurd rfl hif
          rw [hbase, if_neg hif]
          cases (s.ioRaw r).getLsbD i <;> cases r.writeMask.getLsbD i <;> rfl
      | environment => simp only [State.ioRead16, ho, hd]
      | unused => simp only [State.ioRead16, ho, hd]
    have hp : p % 2 ≠ o % 2 := by omega
    split
    · apply BitVec.eq_of_getLsbD_eq
      intro i hi
      simp only [BitVec.getLsbD_extractLsb']
      rw [hbits _ (by omega) (by omega)]
    · apply BitVec.eq_of_getLsbD_eq
      intro i hi
      simp only [BitVec.getLsbD_extractLsb']
      rw [hbits _ (by omega) (by omega)]
  · exact ioReadByte_ioWrite16_ne s _ p _ hg

/-! ### Storage -/

theorem memByte_congr {s t : State} {k : Nat} (hm : Memory.get? t.mem k = Memory.get? s.mem k)
    (hd : t.draws = s.draws) (hp : t.powerOns = s.powerOns) : t.memByte k = s.memByte k := by
  simp only [State.memByte, hm, hd, hp]

/-- A byte read depends on its storage byte, or on the I/O page, and on the draws. -/
theorem readByte_congr {s t : State} (a : Word) (hd : t.draws = s.draws) (hp : t.powerOns = s.powerOns)
    (hm : Memory.get? t.mem (keyOf a) = Memory.get? s.mem (keyOf a))
    (hio : regionOf a = .io → t.ioReadByte (a.toNat % 0x400) = s.ioReadByte (a.toNat % 0x400)) :
    t.readByte a = s.readByte a := by
  unfold State.readByte
  unfold keyOf at hm
  cases hr : regionOf a <;> rw [hr] at hm <;> simp only [] <;>
    first | exact memByte_congr hm hd hp | exact hio hr | rw [hd]

theorem storeCells_frame_get? (s : State) (w : Width) (addr v : Word) (k : Nat)
    (h : ∀ b ∈ storedAddresses w addr, k ≠ keyOf b) :
    Memory.get? (s.storeCells (storedCells w addr v)).mem k = Memory.get? s.mem k := by
  rw [storeCells_mem]
  refine get?_foldl_set _ _ _ fun c hc => ?_
  obtain ⟨a, ha, he⟩ := storedCells_key w addr v c hc
  rw [he]
  exact (h a ha).symm

/-! ### MemWrite (20_memory R154) -/

theorem memWrite_of_io (s : State) (w : Width) (a v : Word) (h : regionOf a = .io) :
    s.memWrite w a v = s.ioStore w ((alignAddr w a).toNat % 0x400) v := by
  simp only [State.memWrite, regionOf_alignAddr, h]

theorem memWrite_of_storage (s : State) (w : Width) (a v : Word) (h : regionOf a ≠ .io) :
    s.memWrite w a v = s.storeCells (storedCells w a v) := by
  simp only [State.memWrite, regionOf_alignAddr]

/-- A write to the I/O page leaves the bytes of the page outside the stored ones alone. -/
theorem ioStore_outside (s : State) (w : Width) (addr a v : Word) (h : regionOf addr = .io) (hr : regionOf a = .io)
    (ha : ∀ b ∈ storedAddresses w addr, keyOf a ≠ keyOf b) :
    (s.ioStore w ((alignAddr w addr).toNat % 0x400) v).ioReadByte (a.toNat % 0x400) =
      s.ioReadByte (a.toNat % 0x400) := by
  have hab := regionOf_bounds a .io hr
  have hbb := regionOf_bounds (alignAddr w addr) .io (by rw [regionOf_alignAddr, h])
  simp only [regionBounds] at hab hbb
  have hkeys : ∀ b ∈ byteSpan w (alignAddr w addr), a.toNat ≠ b.toNat := by
    intro b hb e
    have hst : storedAddresses w addr = byteSpan w (alignAddr w addr) := by
      unfold storedAddresses; rw [h]; cases w <;> rfl
    refine ha b (hst ▸ hb) ?_
    rw [BitVec.eq_of_toNat_eq e]
  have hw := alignAddr_word_toNat addr
  have hh := alignAddr_half_toNat addr
  cases w
  · have h0 := hkeys _ List.mem_cons_self
    exact ioReadByte_ioWrite8_ne s _ _ _ (by omega)
  · have h0 := hkeys _ List.mem_cons_self
    have h1 := hkeys (alignAddr .half addr + BitVec.ofNat 32 1) (by simp [byteSpan])
    rw [toNat_add_small _ 1 (by omega)] at h1
    exact ioReadByte_ioWrite16_ne s _ _ _ (by omega)
  · have h0 := hkeys _ List.mem_cons_self
    have h1 := hkeys (alignAddr .word addr + BitVec.ofNat 32 1) (by simp [byteSpan])
    have h2 := hkeys (alignAddr .word addr + BitVec.ofNat 32 2) (by simp [byteSpan])
    have h3 := hkeys (alignAddr .word addr + BitVec.ofNat 32 3) (by simp [byteSpan])
    rw [toNat_add_small _ _ (by omega)] at h1 h2 h3
    simp only [State.ioStore, State.ioWrite32]
    rw [ioReadByte_ioWrite16_ne _ _ _ _ (by omega)]
    exact ioReadByte_ioWrite16_ne s _ _ _ (by omega)

/-- What a bus write may change, said once: memory, granules, reference registers and events, and nothing else. -/
theorem memWrite_keeps (s : State) (w : Width) (a v : Word) :
    (s.memWrite w a v).regs = s.regs ∧ (s.memWrite w a v).cpsr = s.cpsr ∧ (s.memWrite w a v).pc = s.pc ∧
      KeepsAllButStore s (s.memWrite w a v) := by
  by_cases h : regionOf a = .io
  · rw [memWrite_of_io s w a v h]
    have hf := ioStore_frame s w ((alignAddr w a).toNat % 0x400) v
    exact ⟨hf.regs, hf.cpsr, hf.pc, hf.toKeepsAllButStore⟩
  · rw [memWrite_of_storage s w a v h]
    exact ⟨rfl, rfl, rfl, by constructor <;> rfl⟩

/-- The bytes outside the stored ones read as before. -/
theorem memWrite_outside (s : State) (w : Width) (addr v : Word) :
    KeepsMemoryBut (storedAddresses w addr) s (s.memWrite w addr v) := by
  intro a ha
  by_cases h : regionOf addr = .io
  · rw [memWrite_of_io s w addr v h]
    have hf := ioStore_frame s w ((alignAddr w addr).toNat % 0x400) v
    exact readByte_congr a hf.draws hf.powerOns (by rw [hf.mem]) fun hr => ioStore_outside s w addr a v h hr ha
  · rw [memWrite_of_storage s w addr v h]
    exact readByte_congr a rfl rfl (storeCells_frame_get? s w addr v _ ha) fun _ => rfl

/-- A bus write keeps memory in canonical form. -/
theorem memWrite_wf (s : State) (w : Width) (addr v : Word) (h : Memory.wf s.mem = true) :
    Memory.wf (s.memWrite w addr v).mem = true := by
  by_cases hr : regionOf addr = .io
  · rw [memWrite_of_io s w addr v hr, (ioStore_frame s w _ v).mem]; exact h
  · rw [memWrite_of_storage s w addr v hr, storeCells_mem]
    exact wf_foldl_set _ _ h fun c hc => storedCells_isStorageKey w addr v c hc

end Sys2Proof.Machine
end

