-- ==== Sys2Proof/Laws/Access.lean ====
section
/-! SUPPORT. Laws/Access.lean: the frames of Safety.lean from the parts of an instruction, and the answers of the data
accesses. -/

namespace Sys2Proof.Machine

/-! ### Outcomes -/

@[simp] theorem refuseIf_false {α : Type} (r : Refusal) (x : Except Refusal α) : refuseIf false r x = x := rfl

@[simp] theorem refuseIf_true {α : Type} (r : Refusal) (x : Except Refusal α) : refuseIf true r x = .error r := rfl

@[simp] theorem outcome_ok (s : State) : outcome (.ok s) = .next s := rfl

@[simp] theorem outcome_error (r : Refusal) : outcome (.error r) = .refused r := rfl

/-- An ARM instruction whose condition passes is its body. -/
theorem whenPassed_true (c : Cond) (s : State) (body : State → Except Refusal State)
    (h : condPassed c s.cpsr = true) : whenPassed c s body = outcome (body s) := by
  simp [whenPassed, h]

/-- An ARM instruction whose condition fails only advances the PC. -/
theorem whenPassed_false (c : Cond) (s : State) (body : State → Except Refusal State)
    (h : condPassed c s.cpsr = false) : whenPassed c s body = .next s.advance4 := by
  simp [whenPassed, h]

theorem outcome_eq_next (x : Except Refusal State) (t : State) : outcome x = .next t ↔ x = .ok t := by
  cases x <;> simp

theorem refuseIf_eq_ok {α : Type} (b : Bool) (r : Refusal) (x : Except Refusal α) (t : α) :
    refuseIf b r x = .ok t ↔ b = false ∧ x = .ok t := by
  cases b <;> simp

theorem bind_eq_ok {α β : Type} (x : Except Refusal α) (f : α → Except Refusal β) (t : β) :
    x.bind f = .ok t ↔ ∃ a, x = .ok a ∧ f a = .ok t := by
  cases x <;> simp [Except.bind]

/-- Everything an ARM instruction that answers a next state has done. -/
theorem whenPassed_eq_next (c : Cond) (s t : State) (body : State → Except Refusal State) :
    whenPassed c s body = .next t ↔
      (condPassed c s.cpsr = true ∧ body s = .ok t) ∨ (condPassed c s.cpsr = false ∧ t = s.advance4) := by
  cases h : condPassed c s.cpsr
  · rw [whenPassed_false c s body h]; simp [eq_comm]
  · rw [whenPassed_true c s body h, outcome_eq_next]; simp

/-! ### Frames -/

theorem KeepsAllButStore.refl (s : State) : KeepsAllButStore s s := by constructor <;> rfl

theorem KeepsAllButCpu.refl (s : State) : KeepsAllButCpu s s := by
  constructor
  · exact KeepsAllButStore.refl s
  all_goals rfl

theorem KeepsAllButCpu.trans {s t u : State} (h : KeepsAllButCpu s t) (g : KeepsAllButCpu t u) : KeepsAllButCpu s u :=
  { h.toKeepsAllButStore.trans g.toKeepsAllButStore with
    mem := g.mem.trans h.mem, io := g.io.trans h.io, bg2xInt := g.bg2xInt.trans h.bg2xInt,
    bg2yInt := g.bg2yInt.trans h.bg2yInt, bg3xInt := g.bg3xInt.trans h.bg3xInt, bg3yInt := g.bg3yInt.trans h.bg3yInt,
    envEvents := g.envEvents.trans h.envEvents }

/-- A step that changes only general registers, CPSR and PC changes no byte. -/
theorem KeepsAllButCpu.memory {s t : State} (h : KeepsAllButCpu s t) : KeepsMemory s t := fun a =>
  readByte_congr a h.draws h.powerOns (by rw [h.mem]) fun _ => by
    simp only [State.ioReadByte, ioRead16_congr _ h.draws fun q _ => ioRaw_congr h.io q]

theorem RegisterFrame.of {written : List RegNum} {s t : State} (hr : KeepsRegistersBut written s t)
    (hk : KeepsAllButCpu s t) : RegisterFrame written s t := ⟨hr, hk, hk.memory⟩

/-- One register written in the mode of `s`. -/
theorem KeepsRegistersBut.writeReg (s : State) (i : RegNum) (v : Word) (written : List RegNum) (h : i ∈ written) :
    KeepsRegistersBut written s (s.writeReg i v) := fun p hp =>
  reg_writeRegMode_ne s _ i v p (hp i h)

theorem KeepsRegistersBut.refl (written : List RegNum) (s : State) : KeepsRegistersBut written s s := fun _ _ => rfl

theorem KeepsRegistersBut.trans {written : List RegNum} {s t u : State} (h : KeepsRegistersBut written s t)
    (g : KeepsRegistersBut written t u) (hm : t.cpsr.mode = s.cpsr.mode) : KeepsRegistersBut written s u := fun p hp =>
  (g p fun i hi => hm ▸ hp i hi).trans (h p hp)

theorem KeepsRegistersBut.congr {written : List RegNum} {s t u : State} (h : KeepsRegistersBut written s t)
    (e : u.regs = t.regs) : KeepsRegistersBut written s u := fun p hp => (reg_congr e p).trans (h p hp)

theorem KeepsRegistersBut.mono {l m : List RegNum} {s t : State} (h : KeepsRegistersBut l s t) (hs : ∀ i ∈ l, i ∈ m) :
    KeepsRegistersBut m s t := fun p hp => h p fun i hi => hp i (hs i hi)

/-- The frame of an instruction whose whole effect is one register, CPSR and PC. -/
theorem RegisterFrame.write (s : State) (i : RegNum) (v : Word) (p : Cpsr) (pc : Word) :
    RegisterFrame [i] s { (s.writeReg i v) with cpsr := p, pc := pc } := by
  refine RegisterFrame.of ((KeepsRegistersBut.writeReg s i v [i] List.mem_cons_self).congr rfl) ?_
  constructor
  · constructor <;> simp
  all_goals simp

/-- The frame of an instruction whose whole effect is CPSR and PC. -/
theorem RegisterFrame.status (s : State) (p : Cpsr) (pc : Word) (written : List RegNum) :
    RegisterFrame written s { s with cpsr := p, pc := pc } := by
  refine RegisterFrame.of (fun _ _ => rfl) ?_
  constructor
  · constructor <;> rfl
  all_goals rfl

/-- A store, then registers, CPSR and PC. -/
theorem StoreFrame.of {written : List RegNum} {addrs : List Word} {s t u : State} (hr : KeepsRegistersBut written s u)
    (hk : KeepsAllButStore s t) (hm : KeepsMemoryBut addrs s t) (hu : KeepsAllButCpu t u) :
    StoreFrame written addrs s u :=
  ⟨hr, hk.trans hu.toKeepsAllButStore, fun a ha => (hu.memory a).trans (hm a ha)⟩

/-! ### Data accesses -/

/-- A load is a bus read, unless it is a wide SRAM access. -/
theorem load_eq_ok (s : State) (w : Width) (a v : Word) :
    s.load w a = .ok v ↔ loadAdmitted w a ∧ s.memRead w a = v := by
  simp only [State.load, refuseIf_eq_ok, loadAdmitted, Except.ok.injEq]

theorem load_of_admitted (s : State) (w : Width) (a : Word) (h : loadAdmitted w a) :
    s.load w a = .ok (s.memRead w a) := (load_eq_ok s w a _).mpr ⟨h, rfl⟩

theorem loadRotated_of_admitted (s : State) (a : Word) (h : loadAdmitted .word a) :
    s.loadRotated a = .ok ((s.memRead .word a).rotateRight (8 * (a.extractLsb' 0 2).toNat)) := by
  simp only [State.loadRotated, load_of_admitted s .word a h, Except.map]

/-- A store is a bus write, unless it is a wide SRAM access or changes the prefetch window. -/
theorem store_eq_ok (s t : State) (w : Width) (a v : Word) :
    s.store w a v = .ok t ↔ storeAdmitted s w a v ∧ t = s.memWrite w a v := by
  simp only [State.store, refuseIf_eq_ok, storeAdmitted, Except.ok.injEq, and_assoc, eq_comm (a := t)]

theorem store_of_admitted (s : State) (w : Width) (a v : Word) (h : storeAdmitted s w a v) :
    s.store w a v = .ok (s.memWrite w a v) := (store_eq_ok s _ w a v).mpr ⟨h, rfl⟩

/-- Several word loads answer the words at their addresses. -/
theorem loadAll_of_admitted (s : State) (l : List Word) (h : ∀ a ∈ l, loadAdmitted .word a) :
    s.loadAll l = .ok (l.map (s.memRead .word)) := by
  induction l with
  | nil => rfl
  | cons a l ih =>
    rw [State.loadAll, load_of_admitted s .word a (h a List.mem_cons_self),
      ih fun b hb => h b (List.mem_cons_of_mem _ hb)]
    rfl

theorem loadAll_eq_ok (s : State) (l vs : List Word) (h : s.loadAll l = .ok vs) :
    (∀ a ∈ l, loadAdmitted .word a) ∧ vs = l.map (s.memRead .word) := by
  induction l generalizing vs with
  | nil => simp only [State.loadAll, Except.ok.injEq] at h; subst h; simp
  | cons a l ih =>
    rw [State.loadAll, bind_eq_ok] at h
    obtain ⟨v, hv, h⟩ := h
    obtain ⟨ha, rfl⟩ := (load_eq_ok s .word a v).mp hv
    cases hl : s.loadAll l with
    | error r => rw [hl] at h; cases h
    | ok ws =>
      rw [hl] at h
      obtain ⟨h1, h2⟩ := ih ws hl
      cases h
      exact ⟨fun b hb => by rcases List.mem_cons.mp hb with rfl | hb; exacts [ha, h1 b hb], by simp [h2]⟩

/-- The state after several word writes, in order. -/
def State.writeWords (s : State) (l : List (Word × Word)) : State := l.foldl (fun t x => t.memWrite .word x.1 x.2) s

/-- The addresses several word writes store to. -/
def wordsStored (l : List (Word × Word)) : List Word := l.flatMap fun x => storedAddresses .word x.1

theorem writeWords_keeps (s : State) (l : List (Word × Word)) :
    (s.writeWords l).regs = s.regs ∧ (s.writeWords l).cpsr = s.cpsr ∧ (s.writeWords l).pc = s.pc ∧
      KeepsAllButStore s (s.writeWords l) := by
  induction l generalizing s with
  | nil => exact ⟨rfl, rfl, rfl, KeepsAllButStore.refl s⟩
  | cons x l ih =>
    obtain ⟨h1, h2, h3, h4⟩ := memWrite_keeps s .word x.1 x.2
    obtain ⟨g1, g2, g3, g4⟩ := ih (s.memWrite .word x.1 x.2)
    exact ⟨g1.trans h1, g2.trans h2, g3.trans h3, h4.trans g4⟩

theorem writeWords_outside (s : State) (l : List (Word × Word)) : KeepsMemoryBut (wordsStored l) s (s.writeWords l) := by
  induction l generalizing s with
  | nil => intro a _; rfl
  | cons x l ih =>
    intro a ha
    simp only [wordsStored, List.flatMap_cons, List.mem_append] at ha
    exact (ih (s.memWrite .word x.1 x.2) a fun b hb => ha b (.inr hb)).trans
      (memWrite_outside s .word x.1 x.2 a fun b hb => ha b (.inl hb))

theorem writeWords_wf (s : State) (l : List (Word × Word)) (h : Memory.wf s.mem = true) :
    Memory.wf (s.writeWords l).mem = true := by
  induction l generalizing s with
  | nil => exact h
  | cons x l ih => exact ih _ (memWrite_wf s .word x.1 x.2 h)

theorem storeAdmitted_congr {s t : State} (hc : t.cpsr = s.cpsr) (hp : t.pc = s.pc) (w : Width) (a v : Word) :
    storeAdmitted t w a v ↔ storeAdmitted s w a v := by
  simp only [storeAdmitted, State.instrLength, hc, hp]

/-- Several stores are the bus writes in order when each is admitted. -/
theorem storeAll_of_admitted (s : State) (l : List (Word × Word)) (h : ∀ x ∈ l, storeAdmitted s .word x.1 x.2) :
    s.storeAll l = .ok (s.writeWords l) := by
  induction l generalizing s with
  | nil => rfl
  | cons x l ih =>
    obtain ⟨a, v⟩ := x
    obtain ⟨_, h2, h3, _⟩ := memWrite_keeps s .word a v
    rw [State.storeAll, store_of_admitted s .word a v (h (a, v) List.mem_cons_self)]
    exact ih _ fun y hy => (storeAdmitted_congr h2 h3 .word y.1 y.2).mpr (h y (List.mem_cons_of_mem _ hy))

theorem storeAll_eq_ok (s t : State) (l : List (Word × Word)) (h : s.storeAll l = .ok t) :
    (∀ x ∈ l, storeAdmitted s .word x.1 x.2) ∧ t = s.writeWords l := by
  induction l generalizing s with
  | nil => simp only [State.storeAll, Except.ok.injEq] at h; subst h; exact ⟨by simp, rfl⟩
  | cons x l ih =>
    obtain ⟨a, v⟩ := x
    obtain ⟨_, h2, h3, _⟩ := memWrite_keeps s .word a v
    rw [State.storeAll, bind_eq_ok] at h
    obtain ⟨u, hu, h⟩ := h
    obtain ⟨ha, rfl⟩ := (store_eq_ok s u .word a v).mp hu
    obtain ⟨g1, g2⟩ := ih _ h
    refine ⟨fun y hy => ?_, g2⟩
    rcases List.mem_cons.mp hy with rfl | hy
    · exact ha
    · exact (storeAdmitted_congr h2 h3 .word y.1 y.2).mp (g1 y hy)

end Sys2Proof.Machine
end

