-- ==== Sys2Proof/Laws/Arithmetic.lean ====
section
/-! SUPPORT. Laws/Arithmetic.lean: the six primitives of 40_shifter_alu R371 in the words of integer arithmetic. -/

namespace Sys2Proof.Machine

/-- AddWithCarry with its sum named. -/
theorem addWithCarry_eq (x y r : Word) (c : Bool) (hr : x + y + BitVec.ofNat 32 c.toNat = r) :
    addWithCarry x y c =
      { result := r
        carry := decide (2 ^ 32 ≤ x.toNat + y.toNat + c.toNat)
        overflow := decide (r.toInt ≠ x.toInt + y.toInt + (c.toNat : Int)) } := by
  have h : BitVec.ofNat 32 (x.toNat + y.toNat + c.toNat) = r := by
    rw [← hr]
    apply BitVec.eq_of_toNat_eq
    simp [BitVec.toNat_add, Nat.add_mod]
  simp only [addWithCarry, h]

/-- The unsigned value of a complement. -/
theorem toNat_complement (y : Word) : (~~~y).toNat = 2 ^ 32 - 1 - y.toNat := BitVec.toNat_not

/-- The signed value of a complement. -/
theorem toInt_complement (y : Word) : (~~~y).toInt = -y.toInt - 1 := by
  have h := y.isLt
  rw [BitVec.toInt_eq_toNat_cond, BitVec.toInt_eq_toNat_cond, toNat_complement]
  split <;> split <;> omega

/-- Adding a complement subtracts, and one more when the carry is clear. -/
theorem add_complement (x y : Word) (c : Bool) :
    x + ~~~y + BitVec.ofNat 32 c.toNat = x - y - (if c then 0#32 else 1#32) := by
  have hx := x.isLt
  have hy := y.isLt
  apply BitVec.eq_of_toNat_eq
  cases c
  · simp only [BitVec.toNat_add, BitVec.toNat_sub, toNat_complement, Bool.toNat_false, BitVec.toNat_ofNat,
      Bool.false_eq_true, if_false]
    omega
  · simp only [BitVec.toNat_add, BitVec.toNat_sub, toNat_complement, Bool.toNat_true, BitVec.toNat_ofNat, if_true]
    omega

/-- add (40_shifter_alu R371). -/
theorem aluAdd_eq (a b : Word) :
    aluAdd a b =
      { result := a + b
        carry := decide (2 ^ 32 ≤ a.toNat + b.toNat)
        overflow := decide ((a + b).toInt ≠ a.toInt + b.toInt) } := by
  refine (addWithCarry_eq a b (a + b) false (by simp)).trans ?_
  simp

/-- adc (40_shifter_alu R371). -/
theorem aluAdc_eq (a b : Word) (c : Bool) :
    aluAdc a b c =
      { result := a + b + BitVec.ofNat 32 c.toNat
        carry := decide (2 ^ 32 ≤ a.toNat + b.toNat + c.toNat)
        overflow := decide ((a + b + BitVec.ofNat 32 c.toNat).toInt ≠ a.toInt + b.toInt + (c.toNat : Int)) } :=
  addWithCarry_eq a b _ c rfl

/-- sbc (40_shifter_alu R371): C set is "no borrow". -/
theorem aluSbc_eq (a b : Word) (c : Bool) :
    aluSbc a b c =
      { result := a - b - BitVec.ofNat 32 (!c).toNat
        carry := decide (b.toNat + (!c).toNat ≤ a.toNat)
        overflow := decide ((a - b - BitVec.ofNat 32 (!c).toNat).toInt ≠ a.toInt - b.toInt - ((!c).toNat : Int)) } := by
  have hr := add_complement a b c
  have hi := toInt_complement b
  have hn := toNat_complement b
  have hb := b.isLt
  refine (addWithCarry_eq a (~~~b) (a - b - BitVec.ofNat 32 (!c).toNat) c (by cases c <;> simpa using hr)).trans ?_
  rw [hi, hn]
  congr 1
  · rw [decide_eq_decide]; cases c <;> simp only [Bool.toNat_true, Bool.toNat_false, Bool.not_true, Bool.not_false] <;> omega
  · rw [decide_eq_decide]
    apply not_congr
    cases c <;> simp only [Bool.toNat_true, Bool.toNat_false, Bool.not_true, Bool.not_false] <;> omega

/-- sub (40_shifter_alu R371): C set is "no borrow". -/
theorem aluSub_eq (a b : Word) :
    aluSub a b =
      { result := a - b
        carry := decide (b.toNat ≤ a.toNat)
        overflow := decide ((a - b).toInt ≠ a.toInt - b.toInt) } := by
  refine (aluSbc_eq a b true).trans ?_
  simp

/-- rsb (40_shifter_alu R371). -/
theorem aluRsb_eq (a b : Word) :
    aluRsb a b =
      { result := b - a
        carry := decide (a.toNat ≤ b.toNat)
        overflow := decide ((b - a).toInt ≠ b.toInt - a.toInt) } := aluSub_eq b a

/-- rsc (40_shifter_alu R371). -/
theorem aluRsc_eq (a b : Word) (c : Bool) :
    aluRsc a b c =
      { result := b - a - BitVec.ofNat 32 (!c).toNat
        carry := decide (a.toNat + (!c).toNat ≤ b.toNat)
        overflow := decide ((b - a - BitVec.ofNat 32 (!c).toNat).toInt ≠ b.toInt - a.toInt - ((!c).toNat : Int)) } :=
  aluSbc_eq b a c

end Sys2Proof.Machine
end

