-- ==== Sys2Proof/Laws/Bits.lean ====
section
/-! SUPPORT. Laws/Bits.lean: bit fields, shifts and offsets in the words of integer arithmetic. -/

namespace Sys2Proof.Machine

/-! ### Shifts (40_shifter_alu R360 to R364) -/

theorem shiftLeft_toNat (v : Word) (n : Nat) : (v <<< n).toNat = v.toNat * 2 ^ n % 2 ^ 32 := by
  rw [BitVec.toNat_shiftLeft, Nat.shiftLeft_eq]

theorem shiftRight_toNat (v : Word) (n : Nat) : (v >>> n).toNat = v.toNat / 2 ^ n := by
  rw [BitVec.toNat_ushiftRight, Nat.shiftRight_eq_div_pow]

theorem shiftRight_toInt (v : Word) (n : Nat) : (v.sshiftRight n).toInt = v.toInt / 2 ^ n := by
  rw [BitVec.toInt_sshiftRight, Int.shiftRight_eq_div_pow]; norm_cast

theorem rotateRight_bit (v : Word) (n k : Nat) (hn : n < 32) (hk : k < 32) :
    (v.rotateRight n).getLsbD k = v.getLsbD ((k + n) % 32) := by
  rw [BitVec.getLsbD_rotateRight, Nat.mod_eq_of_lt hn]
  by_cases h : k < 32 - n
  · rw [decide_eq_true h, cond_true, Nat.mod_eq_of_lt (by omega), Nat.add_comm]
  · rw [decide_eq_false h, cond_false, show (k + n) % 32 = k - (32 - n) by omega]
    simp [hk]

/-! ### Low bits of an address -/

theorem lowTwo_toNat (a : Word) : (a.extractLsb' 0 2).toNat = a.toNat % 4 := by simp [BitVec.extractLsb'_toNat]

theorem bit0_eq (v : Word) : v.getLsbD 0 = decide (v.toNat % 2 = 1) := by rw [BitVec.getLsbD, Nat.testBit_zero]

theorem bit1_eq (v : Word) : v.getLsbD 1 = decide (v.toNat / 2 % 2 = 1) := by
  rw [BitVec.getLsbD, Nat.testBit_succ, Nat.testBit_zero]

theorem oddAddress_eq (a : Word) : oddAddress a = decide (a.toNat % 2 = 1) := bit0_eq a

theorem alignAddr_half_of_even (a : Word) (h : a.toNat % 2 = 0) : alignAddr .half a = a := by
  apply BitVec.eq_of_toNat_eq; rw [alignAddr_half_toNat]; omega

theorem alignAddr_word_of_multiple (a : Word) (h : a.toNat % 4 = 0) : alignAddr .word a = a := by
  apply BitVec.eq_of_toNat_eq; rw [alignAddr_word_toNat]; omega

/-! ### Zero-extended values -/

theorem lowByte_setWidth (v : Byte) : (v.setWidth 32).extractLsb' 0 8 = v := by
  apply BitVec.eq_of_getLsbD_eq; intro i hi; simp [hi]; intro h; omega

theorem lowHalf_setWidth (v : Half) : (v.setWidth 32).extractLsb' 0 16 = v := by
  apply BitVec.eq_of_getLsbD_eq; intro i hi; simp [hi]; intro h; omega

/-- A scaled offset field. -/
theorem zextShift_eq (n k : Nat) (v : BitVec n) (h : n + k ≤ 32) :
    zextShift v k = BitVec.ofNat 32 (2 ^ k * v.toNat) := by
  unfold zextShift
  have hv := v.isLt
  have hn : 2 ^ n ≤ 2 ^ 32 := Nat.pow_le_pow_right (by omega) (by omega)
  apply BitVec.eq_of_toNat_eq
  rw [BitVec.toNat_shiftLeft, BitVec.toNat_setWidth, BitVec.toNat_ofNat,
    Nat.mod_eq_of_lt (Nat.lt_of_lt_of_le hv hn), Nat.shiftLeft_eq, Nat.mul_comm]

/-- The target of a branch: a signed offset field, scaled, from the PC. -/
theorem branchTarget_eq (pc : Word) (k : Nat) {n : Nat} (x : BitVec n) (m : Nat) (hn : 0 < n) :
    pc + BitVec.ofNat 32 k + (x ++ (0#m) : BitVec (n + m)).signExtend 32 =
      BitVec.ofInt 32 (pc.toNat + k + 2 ^ m * x.toInt) := by
  have h : (x ++ 0#m).toInt = 2 ^ m * x.toInt := by
    rw [BitVec.toInt_append]
    split
    · next h => exfalso; simp at h; omega
    · simp [mul_comm]
  rw [BitVec.signExtend, h]
  rw [BitVec.ofInt_add, BitVec.ofInt_add, BitVec.ofInt_natCast, BitVec.ofInt_natCast, BitVec.ofNat_toNat,
    BitVec.setWidth_eq]

end Sys2Proof.Machine
end

