-- ==== Sys2Proof/Laws/ReadBack.lean ====
section
/-! SUPPORT. Laws/ReadBack.lean: reading back what a bus write stored (20_memory R154 to R156). -/

namespace Sys2Proof.Machine

/-- The bytes of a word have four keys. -/
theorem keyIn_distinct (r : Region) (a i j : Nat) (ha : a % 4 + i < 4) (hb : a % 4 + j < 4) (h : i ≠ j) :
    keyIn r (a + i) ≠ keyIn r (a + j) := by
  cases r <;> simp only [keyIn, vramOffset, ne_eq] <;> (try split_ifs) <;> omega

/-- A storage byte just listed. -/
theorem memByte_listed (s : State) (k : Nat) (b : Byte) (h : Memory.get? s.mem k = some b) : s.memByte k = b := by
  simp only [State.memByte, h]

/-- A byte of storage reads as its listed byte. -/
theorem readByte_listed (s : State) (a : Word) (b : Byte) (hio : regionOf a ≠ .io) (hun : regionOf a ≠ .unmapped)
    (h : Memory.get? s.mem (keyOf a) = some b) : s.readByte a = b := by
  unfold keyOf at h
  unfold State.readByte
  cases hr : regionOf a <;> rw [hr] at h <;> simp only [] <;>
    first | exact memByte_listed s _ b h | exact absurd hr hio | exact absurd hr hun

/-- What cells in a row list. -/
theorem get?_cellsIn (m : List Host.Cell) (r : Region) (w : Width) (a v : Word) (ha : alignAddr w a = a) (k : Nat)
    (hk : k < w.bytes) :
    Memory.get? ((cellsIn r w a v).foldl (fun m c => Memory.set m c.1 c.2) m) (keyIn r (a.toNat + k)) =
      some (v.extractLsb' (8 * k) 8) := by
  have hw := alignAddr_word_toNat a
  have hh := alignAddr_half_toNat a
  cases w
  · simp only [Width.bytes] at hk
    obtain rfl : k = 0 := by omega
    exact get?_set_same m _ _
  · rw [ha] at hh
    simp only [Width.bytes] at hk
    simp only [cellsIn, List.foldl_cons, List.foldl_nil]
    obtain rfl | rfl : k = 0 ∨ k = 1 := by omega
    · rw [get?_set_ne _ _ _ _ (keyIn_distinct r a.toNat 0 1 (by omega) (by omega) (by omega))]
      exact get?_set_same _ _ _
    · exact get?_set_same _ _ _
  · rw [ha] at hw
    simp only [Width.bytes] at hk
    simp only [cellsIn, List.foldl_cons, List.foldl_nil]
    have hne : ∀ i j, i < 4 → j < 4 → i ≠ j → keyIn r (a.toNat + i) ≠ keyIn r (a.toNat + j) := fun i j hi hj h =>
      keyIn_distinct r a.toNat i j (by omega) (by omega) h
    obtain rfl | rfl | rfl | rfl : k = 0 ∨ k = 1 ∨ k = 2 ∨ k = 3 := by omega
    · rw [get?_set_ne _ _ _ _ (hne 0 3 (by omega) (by omega) (by omega)),
        get?_set_ne _ _ _ _ (hne 0 2 (by omega) (by omega) (by omega)),
        get?_set_ne _ _ _ _ (hne 0 1 (by omega) (by omega) (by omega))]
      exact get?_set_same _ _ _
    · rw [get?_set_ne _ _ _ _ (hne 1 3 (by omega) (by omega) (by omega)),
        get?_set_ne _ _ _ _ (hne 1 2 (by omega) (by omega) (by omega))]
      exact get?_set_same _ _ _
    · rw [get?_set_ne _ _ _ _ (hne 2 3 (by omega) (by omega) (by omega))]
      exact get?_set_same _ _ _
    · exact get?_set_same _ _ _

/-- The bytes of cells in a row read back. -/
theorem readByte_cellsIn (s : State) (w : Width) (a v : Word) (ha : alignAddr w a = a) (hio : regionOf a ≠ .io)
    (hun : regionOf a ≠ .unmapped) (k : Nat) (hk : k < w.bytes) :
    (s.storeCells (cellsIn (regionOf a) w a v)).readByte (a + BitVec.ofNat 32 k) = v.extractLsb' (8 * k) 8 := by
  have hw := alignAddr_word_toNat a
  have hh := alignAddr_half_toNat a
  have hsmall : a.toNat % 4 + k < 4 := by
    cases w <;> simp only [Width.bytes] at hk
    · omega
    · rw [ha] at hh; omega
    · rw [ha] at hw; omega
  have hr := regionOf_add_small a k hsmall
  refine readByte_listed _ _ _ (by rw [hr]; exact hio) (by rw [hr]; exact hun) ?_
  rw [keyOf_add_small a k hsmall, storeCells_mem]
  exact get?_cellsIn s.mem _ w a v ha k hk

/-- The value of cells in a row reads back. -/
theorem memRead_cellsIn (s : State) (w : Width) (a v : Word) (hio : regionOf a ≠ .io) (hun : regionOf a ≠ .unmapped) :
    (s.storeCells (cellsIn (regionOf a) w (alignAddr w a) v)).memRead w a = lowBytes w v := by
  have hal := alignAddr_idem w a
  have hr := regionOf_alignAddr w a
  have key : ∀ k, k < w.bytes →
      (s.storeCells (cellsIn (regionOf a) w (alignAddr w a) v)).readByte (alignAddr w a + BitVec.ofNat 32 k) =
        v.extractLsb' (8 * k) 8 := fun k hk => by
    rw [← hr]
    exact readByte_cellsIn s w (alignAddr w a) v hal (by rw [hr]; exact hio) (by rw [hr]; exact hun) k hk
  cases w
  · have h0 := key 0 (by decide)
    simp only [BitVec.add_zero, alignAddr_byte] at h0
    simp only [State.memRead, lowBytes, alignAddr_byte, h0]
  · have h0 := key 0 (by decide)
    have h1 := key 1 (by decide)
    rw [BitVec.add_zero] at h0
    simp only [State.memRead, State.readHalf, lowBytes]
    rw [h0, h1]
    congr 1
    apply BitVec.eq_of_getLsbD_eq
    intro i hi
    simp only [BitVec.getLsbD_append, BitVec.getLsbD_extractLsb']
    interval_cases i <;> rfl
  · have h0 := key 0 (by decide)
    have h1 := key 1 (by decide)
    have h2 := key 2 (by decide)
    have h3 := key 3 (by decide)
    rw [BitVec.add_zero] at h0
    simp only [State.memRead, State.readWord, lowBytes]
    rw [h0, h1, h2, h3]
    apply BitVec.eq_of_getLsbD_eq
    intro i hi
    simp only [BitVec.getLsbD_append, BitVec.getLsbD_extractLsb']
    interval_cases i <;> simp

/-- What a bus write stores, said once, the I/O page apart (20_memory R154 to R168). -/
theorem memWrite_stores (s : State) (w : Width) (a v : Word) (hs : sramWide w a = false) :
    StoredValue w a v s (s.memWrite w a v) := by
  by_cases hio : regionOf a = .io
  · unfold StoredValue; rw [hio]; trivial
  · rw [memWrite_of_storage s w a v hio]
    have hhalf := alignAddr_idem .half a
    have hc : ∀ w' u, regionOf a ≠ .unmapped →
        (s.storeCells (cellsIn (regionOf a) w' (alignAddr w' a) u)).memRead w' a = lowBytes w' u := fun w' u hun =>
      memRead_cellsIn s w' a u hio hun
    have hrep : lowBytes .half (replicateByte v) = (v.extractLsb' 0 8 ++ v.extractLsb' 0 8 : Half).setWidth 32 := by
      simp only [lowBytes, replicateByte]
      congr 1
      apply BitVec.eq_of_getLsbD_eq
      intro i hi
      simp only [BitVec.getLsbD_extractLsb', BitVec.getLsbD_setWidth]
      simp [hi, show i < 32 by omega]
    have hnone : storedCells w a v = [] → KeepsMemory s (s.storeCells (storedCells w a v)) := fun h _ => by
      rw [h]; rfl
    simp only [storedCells, regionOf_alignAddr] at hnone ⊢
    unfold StoredValue
    generalize hr : regionOf a = r at *
    match r, w with
    | .ewram, w => exact hc w v (by decide)
    | .iwram, w => exact hc w v (by decide)
    | .palette, .byte => exact (hc .half _ (by decide)).trans hrep
    | .palette, .half => exact hc .half v (by decide)
    | .palette, .word => exact hc .word v (by decide)
    | .vram, .byte => exact (hc .half _ (by decide)).trans hrep
    | .vram, .half => exact hc .half v (by decide)
    | .vram, .word => exact hc .word v (by decide)
    | .oam, .byte => exact hnone rfl
    | .oam, .half => exact hc .half v (by decide)
    | .oam, .word => exact hc .word v (by decide)
    | .sram, .byte => exact hc .byte v (by decide)
    | .sram, .half => simp [sramWide, hr] at hs
    | .sram, .word => simp [sramWide, hr] at hs
    | .bios, _ => exact hnone rfl
    | .rom, _ => exact hnone rfl
    | .unmapped, _ => exact hnone rfl
    | .io, _ => exact absurd rfl hio

/-- A write to work RAM reads back (20_memory R161, R162). -/
theorem memRead_memWrite_workRam (s : State) (w : Width) (a v : Word) (h : regionOf a = .ewram ∨ regionOf a = .iwram) :
    (s.memWrite w a v).memRead w a = lowBytes w v := by
  have hio : regionOf a ≠ .io := by rcases h with h | h <;> rw [h] <;> decide
  have hun : regionOf a ≠ .unmapped := by rcases h with h | h <;> rw [h] <;> decide
  rw [memWrite_of_storage s w a v hio]
  have hc : storedCells w a v = cellsIn (regionOf a) w (alignAddr w a) v := by
    simp only [storedCells, regionOf_alignAddr]
    rcases h with h | h <;> rw [h]
  rw [hc]
  exact memRead_cellsIn s w a v hio hun

/-- A bus read depends on the bytes alone. -/
theorem memRead_congr {s t : State} (h : KeepsMemory s t) (w : Width) (a : Word) : t.memRead w a = s.memRead w a := by
  cases w <;> simp only [State.memRead, State.readHalf, State.readWord, h _]

/-- Registers, CPSR and PC do not matter for what was stored. -/
theorem StoredValue.of_keeps {w : Width} {a v : Word} {s t u : State} (h : StoredValue w a v s t)
    (hu : KeepsAllButCpu t u) : StoredValue w a v s u := by
  have hm := hu.memory
  have hr : ∀ w a, u.memRead w a = t.memRead w a := fun w a => memRead_congr hm w a
  have hk : KeepsMemory s t → KeepsMemory s u := fun k a => (hm a).trans (k a)
  unfold StoredValue at *
  generalize regionOf a = r at *
  match r, w with
  | .ewram, _ => exact (hr _ _).trans h
  | .iwram, _ => exact (hr _ _).trans h
  | .palette, .byte => exact (hr _ _).trans h
  | .palette, .half => exact (hr _ _).trans h
  | .palette, .word => exact (hr _ _).trans h
  | .vram, .byte => exact (hr _ _).trans h
  | .vram, .half => exact (hr _ _).trans h
  | .vram, .word => exact (hr _ _).trans h
  | .oam, .byte => exact hk h
  | .oam, .half => exact (hr _ _).trans h
  | .oam, .word => exact (hr _ _).trans h
  | .sram, _ => exact (hr _ _).trans h
  | .bios, _ => exact hk h
  | .rom, _ => exact hk h
  | .unmapped, _ => exact hk h
  | .io, _ => trivial

end Sys2Proof.Machine
end

