-- ==== Sys2Proof/Laws/Stores.lean ====
section
/-! SUPPORT. Laws/Stores.lean: the whole effect of one store and of several word stores (Safety.lean, StoreEffect and
WordsEffect). -/

namespace Sys2Proof.Machine

theorem SameIo.refl (s : State) : SameIo s s := ⟨rfl, rfl, rfl, rfl, rfl, rfl⟩

theorem SameIo.trans {s t u : State} (h : SameIo s t) (g : SameIo t u) : SameIo s u :=
  ⟨g.io.trans h.io, g.bg2xInt.trans h.bg2xInt, g.bg2yInt.trans h.bg2yInt, g.bg3xInt.trans h.bg3xInt,
    g.bg3yInt.trans h.bg3yInt, g.envEvents.trans h.envEvents⟩

theorem KeepsAllButCpu.sameIo {s t : State} (h : KeepsAllButCpu s t) : SameIo s t :=
  ⟨h.io, h.bg2xInt, h.bg2yInt, h.bg3xInt, h.bg3yInt, h.envEvents⟩

/-- A write outside the I/O page leaves the page alone. -/
theorem memWrite_sameIo (s : State) (w : Width) (a v : Word) (h : regionOf a ≠ .io) : SameIo s (s.memWrite w a v) := by
  rw [memWrite_of_storage s w a v h]
  exact ⟨rfl, rfl, rfl, rfl, rfl, rfl⟩

/-- The whole effect of a bus write that is no wide SRAM access. -/
theorem memWrite_effect (s : State) (w : Width) (a v : Word) (h : sramWide w a = false) :
    StoreEffect w a v s (s.memWrite w a v) :=
  ⟨memWrite_stores s w a v h, SameIo.refl _, memWrite_sameIo s w a v⟩

/-- Registers, CPSR and PC do not matter for the effect of a store. -/
theorem StoreEffect.of_keeps {w : Width} {a v : Word} {s t u : State} (h : StoreEffect w a v s t)
    (hu : KeepsAllButCpu t u) : StoreEffect w a v s u :=
  ⟨h.value.of_keeps hu, h.page.trans hu.sameIo, fun hr => (h.outside hr).trans hu.sameIo⟩

/-- No byte of the word at `a` is a byte of the word at `b`, under any mirror. -/
def WordsApart (a b : Word) : Prop :=
  ∀ p ∈ byteSpan .word a, ∀ q ∈ byteSpan .word b, keyOf p ≠ keyOf q

theorem WordsApart.symm {a b : Word} (h : WordsApart a b) : WordsApart b a := fun p hp q hq e => h q hq p hp e.symm

theorem storedAddresses_word (a : Word) : storedAddresses .word a = byteSpan .word (alignAddr .word a) := by
  unfold storedAddresses; cases regionOf a <;> rfl

/-- The word at an aligned address depends on its four bytes. -/
theorem memRead_word_congr {s t : State} (a : Word) (ha : alignAddr .word a = a)
    (h : ∀ p ∈ byteSpan .word a, t.readByte p = s.readByte p) : t.memRead .word a = s.memRead .word a := by
  simp only [State.memRead, State.readWord, ha]
  simp only [byteSpan, List.mem_cons, List.not_mem_nil, or_false, forall_eq_or_imp, forall_eq] at h
  rw [h.1, h.2.1, h.2.2.1, h.2.2.2]

/-- A word write leaves a word apart from it alone. -/
theorem memRead_memWrite_apart (s : State) (a b v : Word) (ha : alignAddr .word a = a) (hb : alignAddr .word b = b)
    (h : WordsApart a b) : (s.memWrite .word b v).memRead .word a = s.memRead .word a :=
  memRead_word_congr a ha fun p hp => memWrite_outside s .word b v p fun q hq => by
    rw [storedAddresses_word, hb] at hq; exact h p hp q hq

theorem memRead_writeWords_apart (s : State) (l : List (Word × Word)) (a : Word) (ha : alignAddr .word a = a)
    (h : ∀ x ∈ l, alignAddr .word x.1 = x.1 ∧ WordsApart a x.1) :
    (s.writeWords l).memRead .word a = s.memRead .word a := by
  induction l generalizing s with
  | nil => rfl
  | cons x l ih =>
    have hx := h x List.mem_cons_self
    exact (ih (s.memWrite .word x.1 x.2) fun y hy => h y (List.mem_cons_of_mem _ hy)).trans
      (memRead_memWrite_apart s a x.1 x.2 ha hx.1 hx.2)

theorem writeWords_sameIo (s : State) (l : List (Word × Word)) (h : ∀ x ∈ l, regionOf x.1 ≠ .io) :
    SameIo s (s.writeWords l) := by
  induction l generalizing s with
  | nil => exact SameIo.refl s
  | cons x l ih =>
    exact (memWrite_sameIo s .word x.1 x.2 (h x List.mem_cons_self)).trans
      (ih (s.memWrite .word x.1 x.2) fun y hy => h y (List.mem_cons_of_mem _ hy))

/-- What one word write leaves at its own aligned address. -/
theorem memWrite_word_value (s : State) (a v : Word) (hs : sramWide .word a = false) :
    match regionOf a with
    | .ewram | .iwram | .palette | .vram | .oam => (s.memWrite .word a v).memRead .word a = v
    | .bios | .rom | .unmapped => (s.memWrite .word a v).memRead .word a = s.memRead .word a
    | .io | .sram => True := by
  have h := memWrite_stores s .word a v hs
  unfold StoredValue at h
  generalize regionOf a = r at *
  cases r
  case bios => exact memRead_congr h .word a
  case rom => exact memRead_congr h .word a
  case unmapped => exact memRead_congr h .word a
  case io => trivial
  case sram => trivial
  all_goals exact h

/-- Several word writes to words apart from one another. -/
theorem writeWords_effect (s : State) (l : List (Word × Word)) (hs : ∀ x ∈ l, sramWide .word x.1 = false)
    (ha : ∀ x ∈ l, alignAddr .word x.1 = x.1) (hp : l.Pairwise fun x y => WordsApart x.1 y.1) :
    WordsEffect l s (s.writeWords l) := by
  refine ⟨?_, SameIo.refl _, writeWords_sameIo s l⟩
  induction l generalizing s with
  | nil => simp
  | cons x l ih =>
    have hx := List.pairwise_cons.mp hp
    intro y hy
    rcases List.mem_cons.mp hy with rfl | hy
    · have hk : (s.writeWords (y :: l)).memRead .word y.1 = (s.memWrite .word y.1 y.2).memRead .word y.1 :=
        memRead_writeWords_apart (s.memWrite .word y.1 y.2) l y.1 (ha y List.mem_cons_self)
          fun z hz => ⟨ha z (List.mem_cons_of_mem _ hz), hx.1 z hz⟩
      rw [hk]
      exact memWrite_word_value s y.1 y.2 (hs y List.mem_cons_self)
    · have h := ih (s.memWrite .word x.1 x.2) (fun z hz => hs z (List.mem_cons_of_mem _ hz))
        (fun z hz => ha z (List.mem_cons_of_mem _ hz)) hx.2 y hy
      have hk : (s.memWrite .word x.1 x.2).memRead .word y.1 = s.memRead .word y.1 :=
        memRead_memWrite_apart s y.1 x.1 x.2 (ha y (List.mem_cons_of_mem _ hy)) (ha x List.mem_cons_self)
          (hx.1 y hy).symm
      rw [hk] at h
      exact h

/-! ### The slots of a block transfer -/

theorem blockSlots_map_fst (start : Word) (l : List RegNum) : (blockSlots start l).map (·.1) = l := by
  induction l generalizing start with
  | nil => rfl
  | cons i l ih => simp [blockSlots, ih]

/-- Every slot is a word at a multiple of 4 above the aligned start (43_arm_loadstore R510). -/
theorem blockSlots_addr (start : Word) (l : List RegNum) (x : RegNum × Word) (hx : x ∈ blockSlots start l) :
    ∃ k < l.length, x.2 = (start &&& 0xFFFFFFFC#32) + BitVec.ofNat 32 (4 * k) := by
  induction l generalizing start with
  | nil => simp [blockSlots] at hx
  | cons i l ih =>
    rcases List.mem_cons.mp hx with rfl | hx
    · exact ⟨0, by simp, by simp⟩
    · obtain ⟨k, hk, he⟩ := ih (start + 4#32) hx
      refine ⟨k + 1, by simpa using hk, he.trans ?_⟩
      have : (start + 4#32) &&& 0xFFFFFFFC#32 = (start &&& 0xFFFFFFFC#32) + 4#32 := by
        have h1 := alignAddr_word_toNat (start + 4#32)
        have h2 := alignAddr_word_toNat start
        simp only [alignAddr] at h1 h2
        apply BitVec.eq_of_toNat_eq
        rw [h1, BitVec.toNat_add, BitVec.toNat_add, h2]
        have := start.isLt
        simp only [BitVec.reduceToNat]
        omega
      rw [this]
      have h4 : BitVec.ofNat 32 (4 * (k + 1)) = 4#32 + BitVec.ofNat 32 (4 * k) := by
        apply BitVec.eq_of_toNat_eq
        simp only [BitVec.toNat_ofNat, BitVec.toNat_add]
        omega
      rw [h4, BitVec.add_assoc]

/-- Registers, CPSR and PC do not matter for what several stores leave. -/
theorem WordsEffect.of_keeps {l : List (Word × Word)} {s t u : State} (h : WordsEffect l s t)
    (k : KeepsAllButCpu t u) : WordsEffect l s u := by
  refine ⟨fun x hx => ?_, h.page.trans k.sameIo, fun hr => (h.outside hr).trans k.sameIo⟩
  have hv := h.value x hx
  have hm := memRead_congr k.memory .word x.1
  revert hv
  cases regionOf x.1 <;> simp only [hm] <;> exact id

end Sys2Proof.Machine
end

