-- ==== Sys2Proof/Laws/Blocks.lean ====
section
/-! SUPPORT. Laws/Blocks.lean: register lists and the slots of block transfers (43_arm_loadstore R510). -/

namespace Sys2Proof.Machine

theorem aligned_add_words (start : Word) (k : Nat) :
    alignAddr .word ((start &&& 0xFFFFFFFC#32) + BitVec.ofNat 32 (4 * k)) =
      (start &&& 0xFFFFFFFC#32) + BitVec.ofNat 32 (4 * k) := by
  apply BitVec.eq_of_toNat_eq
  rw [alignAddr_word_toNat, BitVec.toNat_add]
  have h2 := alignAddr_word_toNat start
  simp only [alignAddr] at h2
  rw [h2, BitVec.toNat_ofNat]
  omega

theorem blockSlots_aligned (start : Word) (l : List RegNum) (x : RegNum × Word) (hx : x ∈ blockSlots start l) :
    alignAddr .word x.2 = x.2 := by
  obtain ⟨k, _, he⟩ := blockSlots_addr start l x hx
  rw [he]; exact aligned_add_words start k

/-- Two words a few words apart share no byte. -/
theorem wordsApart_of_near (a : Word) (k : Nat) (h0 : 0 < k) (hk : k < 16)
    (ha : alignAddr .word a = a) : WordsApart a (a + BitVec.ofNat 32 (4 * k)) := by
  have ha' := congrArg BitVec.toNat ha
  rw [alignAddr_word_toNat] at ha'
  have hlt := a.isLt
  have key : ∀ i j : Nat, i < 4 → j < 4 →
      keyOf (a + BitVec.ofNat 32 i) ≠ keyOf (a + BitVec.ofNat 32 (4 * k) + BitVec.ofNat 32 j) := by
    intro i j hi hj
    have hn : (a + BitVec.ofNat 32 (4 * k) + BitVec.ofNat 32 j - (a + BitVec.ofNat 32 i)).toNat = 4 * k + j - i := by
      simp only [BitVec.toNat_sub, BitVec.toNat_add, BitVec.toNat_ofNat]
      omega
    refine keyOf_ne_of_near _ _ (fun e => ?_) (by omega)
    rw [← e, BitVec.sub_self] at hn
    simp at hn
    omega
  have h0' : ∀ b : Word, b = b + BitVec.ofNat 32 0 := fun b => by simp
  intro p hp q hq
  simp only [byteSpan, List.mem_cons, List.not_mem_nil, or_false] at hp hq
  have hp' : ∃ i < 4, p = a + BitVec.ofNat 32 i := by
    rcases hp with rfl | rfl | rfl | rfl
    exacts [⟨0, by omega, h0' _⟩, ⟨1, by omega, rfl⟩, ⟨2, by omega, rfl⟩, ⟨3, by omega, rfl⟩]
  have hq' : ∃ j < 4, q = a + BitVec.ofNat 32 (4 * k) + BitVec.ofNat 32 j := by
    rcases hq with rfl | rfl | rfl | rfl
    exacts [⟨0, by omega, h0' _⟩, ⟨1, by omega, rfl⟩, ⟨2, by omega, rfl⟩, ⟨3, by omega, rfl⟩]
  obtain ⟨i, hi, rfl⟩ := hp'
  obtain ⟨j, hj, rfl⟩ := hq'
  exact key i j hi hj

theorem blockSlots_apart (start : Word) (l : List RegNum) (hl : l.length ≤ 16) :
    (blockSlots start l).Pairwise fun x y => WordsApart x.2 y.2 := by
  induction l generalizing start with
  | nil => exact List.Pairwise.nil
  | cons i l ih =>
    refine List.pairwise_cons.mpr ⟨fun y hy => ?_, ih _ (by simp at hl; omega)⟩
    have hy' : y ∈ blockSlots start (i :: l) := List.mem_cons_of_mem _ hy
    obtain ⟨k, hk, he⟩ := blockSlots_addr (start + 4#32) l y hy
    have hs : (start + 4#32) &&& 0xFFFFFFFC#32 = (start &&& 0xFFFFFFFC#32) + BitVec.ofNat 32 (4 * 1) := by
      have h1 := alignAddr_word_toNat (start + 4#32)
      have h2 := alignAddr_word_toNat start
      simp only [alignAddr] at h1 h2
      apply BitVec.eq_of_toNat_eq
      rw [h1, BitVec.toNat_add, BitVec.toNat_add, h2]
      have := start.isLt
      simp only [BitVec.toNat_ofNat]
      omega
    have h4 : BitVec.ofNat 32 (4 * 1) + BitVec.ofNat 32 (4 * k) = BitVec.ofNat 32 (4 * (k + 1)) := by
      apply BitVec.eq_of_toNat_eq
      simp only [BitVec.toNat_ofNat, BitVec.toNat_add]
      omega
    rw [he, hs, BitVec.add_assoc, h4]
    simp at hl
    refine wordsApart_of_near _ (k + 1) (by omega) (by omega) ?_
    have := aligned_add_words start 0
    simpa using this

/-! ### Register lists -/

theorem listedRegs_length (rlist : BitVec 16) : (listedRegs rlist).length ≤ 16 :=
  (List.length_filter_le _ allRegs).trans (by decide)

theorem listedRegs_nodup (rlist : BitVec 16) : (listedRegs rlist).Nodup :=
  (by decide : allRegs.Nodup).filter _

theorem mem_allRegs (i : RegNum) : i ∈ allRegs := by revert i; decide +kernel

theorem mem_listedRegs (rlist : BitVec 16) (i : RegNum) : i ∈ listedRegs rlist ↔ rlist.getLsbD i.toNat = true := by
  simp [listedRegs, mem_allRegs]

theorem listedRegs_sorted (rlist : BitVec 16) : (listedRegs rlist).Pairwise fun i j => i.toNat < j.toNat :=
  (by decide : allRegs.Pairwise fun i j => i.toNat < j.toNat).filter _

/-! ### Registers loaded from a list -/

theorem writeListed_keeps (s : State) (m : Mode) (l : List (RegNum × Word)) :
    (s.writeListed m l).cpsr = s.cpsr ∧ (s.writeListed m l).pc = s.pc ∧ KeepsAllButCpu s (s.writeListed m l) := by
  induction l generalizing s with
  | nil => exact ⟨rfl, rfl, KeepsAllButCpu.refl s⟩
  | cons x l ih =>
    obtain ⟨h1, h2, h3⟩ := ih (s.writeRegMode m x.1 x.2)
    refine ⟨h1.trans (by simp), h2.trans (by simp), KeepsAllButCpu.trans ?_ h3⟩
    constructor
    · constructor <;> simp
    all_goals simp

theorem reg_writeListed_ne (s : State) (m : Mode) (l : List (RegNum × Word)) (p : PhysReg)
    (h : ∀ x ∈ l, physReg m x.1 ≠ some p) : (s.writeListed m l).reg p = s.reg p := by
  induction l generalizing s with
  | nil => rfl
  | cons x l ih =>
    exact (ih _ fun y hy => h y (List.mem_cons_of_mem _ hy)).trans
      (reg_writeRegMode_ne s m x.1 x.2 p (h x List.mem_cons_self))

theorem readRegMode_writeListed_ne (s : State) (m : Mode) (l : List (RegNum × Word)) (r15 : Word) (i : RegNum)
    (h : ∀ x ∈ l, x.1 ≠ i) : (s.writeListed m l).readRegMode m r15 i = s.readRegMode m r15 i := by
  induction l generalizing s with
  | nil => rfl
  | cons x l ih =>
    exact (ih _ fun y hy => h y (List.mem_cons_of_mem _ hy)).trans
      (readRegMode_writeRegMode_ne s m r15 x.2 x.1 i (h x List.mem_cons_self).symm)

/-- A listed register other than r15 holds its loaded value. -/
theorem readRegMode_writeListed (s : State) (m : Mode) (l : List (RegNum × Word)) (r15 : Word)
    (hn : (l.map (·.1)).Nodup) (x : RegNum × Word) (hx : x ∈ l) (h15 : x.1 ≠ 15#4) :
    (s.writeListed m l).readRegMode m r15 x.1 = x.2 := by
  induction l generalizing s with
  | nil => cases hx
  | cons y l ih =>
    simp only [List.map_cons, List.nodup_cons] at hn
    rcases List.mem_cons.mp hx with rfl | hx
    · refine (readRegMode_writeListed_ne _ m l r15 x.1 fun z hz e => hn.1 ?_).trans
        (readRegMode_writeRegMode_same s m r15 x.2 x.1 h15)
      exact e ▸ List.mem_map_of_mem hz
    · exact ih (s.writeRegMode m y.1 y.2) hn.2 hx

/-- The loaded values paired with their registers are the slots with the words at their addresses. -/
theorem zip_slots (start : Word) (l : List RegNum) (f : Word → Word) :
    l.zip ((blockSlots start l).map fun x => f x.2) = (blockSlots start l).map fun x => (x.1, f x.2) := by
  induction l generalizing start with
  | nil => rfl
  | cons i l ih => simp [blockSlots, ih]

end Sys2Proof.Machine
end

