-- ==== Sys2Proof/Laws/DataProc.lean ====
section
/-! SUPPORT. Laws/DataProc.lean: the ends of the data-processing instructions (41_arm_dataproc R420). -/

namespace Sys2Proof.Machine

/-- The Rn field of MOV and MVN is no obstacle when it is 0. -/
theorem ignoresRn_field (op : DpOp) (rn : RegNum) (h : op.ignoresRn = true → rn = 0#4) :
    (op.ignoresRn && decide (rn ≠ 0#4)) = false := by
  cases h' : op.ignoresRn
  · rfl
  · simp [h h']

/-- A write of Rd other than r15. -/
theorem dpWrite_next (op : DpOp) (setFlags : Bool) (rn rd : RegNum) (op2 : Operand2) (s : State) (hrd : rd ≠ 15#4)
    (hi : op.ignoresRn = true → rn = 0#4) :
    dpWrite op setFlags rn rd op2 s = .ok { (s.writeReg rd (dpResult op rn op2 s).1) with
      cpsr := if setFlags then (dpResult op rn op2 s).2 else s.cpsr
      pc := s.pc + 4#32 } := by
  unfold dpWrite; rw [ignoresRn_field op rn hi, if_neg hrd]; rfl

/-- A write of r15. -/
theorem dpWrite_pc (op : DpOp) (setFlags : Bool) (rn : RegNum) (op2 : Operand2) (s : State)
    (hi : op.ignoresRn = true → rn = 0#4) :
    dpWrite op setFlags rn 15#4 op2 s =
      if setFlags then s.returnFromException (dpResult op rn op2 s).1 else s.branchArm (dpResult op rn op2 s).1 := by
  unfold dpWrite; rw [ignoresRn_field op rn hi]; rfl

/-- A register written in the mode of `s` reads back when the mode is kept. -/
theorem readReg_of_write (s : State) (i : RegNum) (v x : Word) (p : Cpsr) (pc : Word) (hi : i ≠ 15#4)
    (hm : p.mode = s.cpsr.mode) : State.readReg { (s.writeReg i v) with cpsr := p, pc := pc } x i = v := by
  have h : State.readReg { (s.writeReg i v) with cpsr := p, pc := pc } x i = (s.writeReg i v).readReg x i := by
    unfold State.readReg
    simp only [hm, writeReg_cpsr]
    exact readRegMode_congr rfl _ _ _
  exact h.trans (readReg_writeReg_same s x v i hi)

theorem dpResult_mode (op : DpOp) (rn : RegNum) (op2 : Operand2) (s : State) :
    (dpResult op rn op2 s).2.mode = s.cpsr.mode := by
  cases op <;> rfl

end Sys2Proof.Machine
end

