-- ==== Sys2Proof/Laws/Dispatch.lean ====
section
/-! SUPPORT. Laws/Dispatch.lean: the shape every ARM meaning has: a body behind its condition. -/

namespace Sys2Proof.Machine

/-- Every ARM instruction runs a body behind its condition (30_encoding R251). -/
theorem exec_arm (i : Instr) (w : Word) (h : encode i = .arm w) :
    ∃ body : State → Except Refusal State, ∀ s, exec i s = whenPassed (condOf i) s body := by
  cases i <;> first | exact ⟨_, fun _ => rfl⟩ | cases h

/-- An ARM instruction whose condition fails only advances the PC (40_shifter_alu R351, R352). -/
theorem exec_arm_skipped (i : Instr) (w : Word) (s : State) (h : encode i = .arm w)
    (hc : condPassed (condOf i) s.cpsr = false) : exec i s = .next s.advance4 := by
  obtain ⟨body, hb⟩ := exec_arm i w h
  rw [hb s, whenPassed_false _ _ _ hc]

end Sys2Proof.Machine
end

