-- ==== Sys2Proof/Laws/Driver.lean ====
section
/-! SUPPORT. Laws/Driver.lean: what no instruction changes: the frame driver, the frame and its line buffers, the
schedule, the cycles, the draws and the resets. -/

namespace Sys2Proof.Machine

/-- Everything that no instruction changes. -/
structure KeepsDriver (s t : State) : Prop where
  cycles : t.cycles = s.cycles
  bgLine : t.bgLine = s.bgLine
  bgPresent : t.bgPresent = s.bgPresent
  objLine : t.objLine = s.objLine
  objMeta : t.objMeta = s.objMeta
  frame : t.frame = s.frame
  line : t.line = s.line
  phase : t.phase = s.phase
  schedule : t.schedule = s.schedule
  draws : t.draws = s.draws
  powerOns : t.powerOns = s.powerOns

theorem KeepsDriver.trans {s t u : State} (h : KeepsDriver s t) (g : KeepsDriver t u) : KeepsDriver s u :=
  ⟨g.1.trans h.1, g.2.trans h.2, g.3.trans h.3, g.4.trans h.4, g.5.trans h.5, g.6.trans h.6, g.7.trans h.7,
    g.8.trans h.8, g.9.trans h.9, g.10.trans h.10, g.11.trans h.11⟩

theorem KeepsAllButStore.driver {s t : State} (h : KeepsAllButStore s t) : KeepsDriver s t :=
  ⟨h.cycles, h.bgLine, h.bgPresent, h.objLine, h.objMeta, h.frame, h.line, h.phase, h.schedule, h.draws, h.powerOns⟩

/-- A body of an instruction keeps the driver when it answers a state. -/
def Keeping (s : State) (x : Except Refusal State) : Prop := ∀ t, x = .ok t → KeepsDriver s t

namespace Keeping

variable {s : State}

theorem ok {t : State} (h : KeepsDriver s t) : Keeping s (.ok t) := fun u e => by cases e; exact h

theorem error (r : Refusal) : Keeping s (.error r) := fun _ e => by cases e

theorem refuseIf (b : Bool) (r : Refusal) {x : Except Refusal State} (h : Keeping s x) :
    Keeping s (refuseIf b r x) := by
  cases b
  · exact h
  · exact error r

/-- A value read before the state is built. -/
theorem bindValue {α : Type} (x : Except Refusal α) {f : α → Except Refusal State} (h : ∀ v, Keeping s (f v)) :
    Keeping s (x.bind f) := by
  cases x with
  | error r => exact error r
  | ok v => exact h v

/-- A state built before another. -/
theorem bindState {x : Except Refusal State} {f : State → Except Refusal State} (h : Keeping s x)
    (g : ∀ t, Keeping t (f t)) : Keeping s (x.bind f) := by
  cases x with
  | error r => exact error r
  | ok t => exact fun u e => (h t rfl).trans (g t u e)

theorem ite {c : Prop} [Decidable c] {x y : Except Refusal State} (h : Keeping s x) (g : Keeping s y) :
    Keeping s (if c then x else y) := by
  split
  · exact h
  · exact g

/-! ### The shared operations -/

theorem store (w : Width) (a v : Word) : Keeping s (s.store w a v) :=
  refuseIf _ _ (refuseIf _ _ (ok (memWrite_keeps s w a v).2.2.2.driver))

theorem storeAll (l : List (Word × Word)) : Keeping s (s.storeAll l) := by
  induction l generalizing s with
  | nil => exact ok (KeepsAllButStore.refl s).driver
  | cons x l ih => exact bindState (store .word x.1 x.2) fun t => ih

theorem restoreCpsr : Keeping s s.restoreCpsr := by
  unfold State.restoreCpsr
  split
  · exact error _
  · split
    · exact error _
    · exact ok (by constructor <;> rfl)

theorem restoreThen (f : State → Word) : Keeping s (s.restoreCpsr.bind fun r => .ok { r with pc := f r }) :=
  bindState restoreCpsr fun _ => ok (by constructor <;> rfl)

theorem branchArm (v : Word) : Keeping s (s.branchArm v) := refuseIf _ _ (ok (by constructor <;> rfl))

theorem branchExchange (v : Word) : Keeping s (s.branchExchange v) := refuseIf _ _ (ok (by constructor <;> rfl))

theorem raiseHere (k : ExceptionKind) : KeepsDriver s (s.raiseHere k) := by
  constructor <;> simp [State.raiseHere, State.enterException]

/-! ### The bodies of the ARM instructions -/

theorem dpWrite (op : DpOp) (setFlags : Bool) (rn rd : RegNum) (op2 : Operand2) :
    Keeping s (dpWrite op setFlags rn rd op2 s) := by
  refine refuseIf _ _ (ite (ite ?_ (branchArm _)) (ok ?_))
  · refine bindState restoreCpsr fun t => ite (ok ?_) (branchArm _)
    constructor <;> rfl
  · constructor <;> simp

theorem dpTest (op : DpOp) (rn rd : RegNum) (op2 : Operand2) : Keeping s (dpTest op rn rd op2 s) :=
  refuseIf _ _ (ok (by constructor <;> rfl))

theorem mrs (spsr : Bool) (sbo : BitVec 4) (rd : RegNum) (high low : BitVec 4) :
    Keeping s (mrsBody spsr sbo rd high low s) := by
  have h : ∀ v, KeepsDriver s (s.writeReg rd v).advance4 := fun v => by constructor <;> simp [State.advance4]
  refine refuseIf _ _ (refuseIf _ _ (ite ?_ (ok (h _))))
  split
  · exact error _
  · exact ok (h _)

theorem msr (spsr : Bool) (mask : BitVec 4) (v : Word) : Keeping s (msrWrite spsr mask v s) := by
  refine ite ?_ (refuseIf _ _ ?_)
  · unfold msrSpsr
    split
    · exact error _
    · exact ok (by constructor <;> rfl)
  · split
    · exact error _
    · exact ok (by constructor <;> rfl)

theorem multiply (setFlags : Bool) (rd : RegNum) (v : Word) : KeepsDriver s (multiplyWrite setFlags rd v s) := by
  constructor <;> simp [multiplyWrite]

theorem multiplyLong (signed accumulate setFlags : Bool) (rdHi rdLo rs rm : RegNum) :
    Keeping s (multiplyLong signed accumulate setFlags rdHi rdLo rs rm s) :=
  refuseIf _ _ (ok (by constructor <;> simp [multiplyLongWrite]))

theorem swap (w : Width) (a v r : Word) (rd : RegNum) :
    Keeping s ((s.store w a v).bind fun t => .ok (t.writeReg rd r).advance4) :=
  bindState (store w a v) fun t => ok (by constructor <;> simp [State.advance4])

theorem transferChecks (x : Indexing) (rn : RegNum) (o : Offset12) (rd : Option RegNum) {y : Except Refusal State}
    (h : Keeping s y) : Keeping s (transferChecks x rn o rd y) := refuseIf _ _ (refuseIf _ _ (refuseIf _ _ h))

theorem loadWord (x : Indexing) (rn rd : RegNum) (o : Offset12) : Keeping s (loadWordTransfer x rn rd o s) := by
  refine transferChecks _ _ _ _ (refuseIf _ _ (bindValue _ fun v => ite (ok ?_) (ok ?_)))
  · constructor <;> simp
  · constructor <;> simp [State.advance4]

theorem loadByte (x : Indexing) (rn rd : RegNum) (o : Offset12) : Keeping s (loadByteTransfer x rn rd o s) := by
  refine transferChecks _ _ _ _ (refuseIf _ _ (bindValue _ fun v => ok ?_))
  constructor <;> simp [State.advance4]

theorem writebackNext {t : State} (wb : Bool) (rn : RegNum) (v : Word) :
    KeepsDriver t (t.writeback wb rn v).advance4 := by
  constructor <;> simp [State.advance4]

theorem storeWord (x : Indexing) (rn rd : RegNum) (o : Offset12) : Keeping s (storeWordTransfer x rn rd o s) :=
  transferChecks _ _ _ _ (bindState (store _ _ _) fun _ => ok (writebackNext _ _ _))

theorem storeByte (x : Indexing) (rn rd : RegNum) (o : Offset12) : Keeping s (storeByteTransfer x rn rd o s) :=
  transferChecks _ _ _ _ (refuseIf _ _ (bindState (store _ _ _) fun _ => ok (writebackNext _ _ _)))

theorem halfwordChecks (x : Indexing) (rn rd : RegNum) (o : Offset8) (load : Bool) {y : Except Refusal State}
    (h : Keeping s y) : Keeping s (halfwordChecks x rn rd o load y) :=
  refuseIf _ _ (refuseIf _ _ (refuseIf _ _ (refuseIf _ _ (refuseIf _ _ h))))

theorem loadHalfword (w : Width) (signed : Bool) (x : Indexing) (rn rd : RegNum) (o : Offset8) :
    Keeping s (loadHalfwordTransfer w signed x rn rd o s) := by
  refine halfwordChecks _ _ _ _ _ (refuseIf _ _ (bindValue _ fun v => ok ?_))
  constructor <;> simp [State.advance4]

theorem storeHalfword (x : Indexing) (rn rd : RegNum) (o : Offset8) : Keeping s (storeHalfwordTransfer x rn rd o s) :=
  halfwordChecks _ _ _ _ _ (refuseIf _ _ (bindState (store _ _ _) fun _ => ok (writebackNext _ _ _)))

theorem listed (t : State) (m : Mode) (l : List (RegNum × Word)) : KeepsDriver t (t.writeListed m l) :=
  (writeListed_keeps t m l).2.2.driver

theorem blockWriteback (w u : Bool) (rn : RegNum) (rlist : BitVec 16) (base : Word) (t : State) :
    KeepsDriver t (blockWriteback w u rn rlist base t) := by
  constructor <;> simp

theorem next (t : State) : KeepsDriver t t.advance4 := by constructor <;> rfl

theorem blockChecks (rn : RegNum) (rlist : BitVec 16) {y : Except Refusal State} (h : Keeping s y) :
    Keeping s (blockChecks rn rlist y) := refuseIf _ _ (refuseIf _ _ h)

theorem stm (p u w : Bool) (rn : RegNum) (rlist : BitVec 16) : Keeping s (stmBody p u w rn rlist s) :=
  blockChecks _ _ (refuseIf _ _ (bindState (storeAll _) fun _ => ok ((blockWriteback _ _ _ _ _ _).trans (next _))))

theorem stmUser (p u w : Bool) (rn : RegNum) (rlist : BitVec 16) : Keeping s (stmUserBody p u w rn rlist s) :=
  blockChecks _ _ (refuseIf _ _ (refuseIf _ _ (bindState (storeAll _) fun _ => ok (next _))))

theorem ldm (p u w : Bool) (rn : RegNum) (rlist : BitVec 16) : Keeping s (ldmBody p u w rn rlist s) := by
  refine blockChecks _ _ (refuseIf _ _ (bindValue _ fun vs => ite (ok ?_) (ok ?_)))
  · exact ((blockWriteback _ _ _ _ _ _).trans (listed _ _ _)).trans (by constructor <;> rfl)
  · exact ((blockWriteback _ _ _ _ _ _).trans (listed _ _ _)).trans (next _)

theorem ldmUser (p u w : Bool) (rn : RegNum) (rlist : BitVec 16) : Keeping s (ldmUserBody p u w rn rlist s) := by
  refine blockChecks _ _ (ite (refuseIf _ _ (bindValue _ fun vs => ?_))
    (refuseIf _ _ (refuseIf _ _ (bindValue _ fun vs => ok ?_))))
  · have h := (blockWriteback w u rn rlist (s.armReg rn) s).trans
      (listed _ s.cpsr.mode ((listedRegs rlist).zip vs))
    exact fun t e => h.trans (restoreThen _ t e)
  · exact (listed _ _ _).trans (by constructor <;> rfl)

/-! ### The bodies of the Thumb instructions -/

theorem thumbNext (t : State) : KeepsDriver t t.advance2 := by constructor <;> rfl

theorem setLow (rd : LowReg) (v : Word) : KeepsDriver s (s.setLow rd v) := by constructor <;> simp

theorem thumbStore (w : Width) (a v : Word) : Keeping s (thumbStore w a v s) :=
  bindState (store w a v) fun _ => ok (thumbNext _)

theorem thumbStoreHalf (a v : Word) : Keeping s (thumbStoreHalf a v s) := refuseIf _ _ (thumbStore _ _ _)

theorem thumbLoadWord (a : Word) (rd : LowReg) : Keeping s (thumbLoadWord a rd s) :=
  bindValue _ fun _ => ok ((setLow _ _).trans (thumbNext _))

theorem thumbLoad (w : Width) (signed : Bool) (a : Word) (rd : LowReg) : Keeping s (thumbLoad w signed a rd s) :=
  refuseIf _ _ (bindValue _ fun _ => ok ((setLow _ _).trans (thumbNext _)))

theorem writeReg (i : RegNum) (v : Word) (t : State) : KeepsDriver t (t.writeReg i v) := by constructor <;> simp

theorem branchThumb (t : State) (v : Word) : KeepsDriver t (t.branchThumb v) := by constructor <;> rfl

theorem push (list : BitVec 16) : Keeping s (pushBody list s) :=
  refuseIf _ _ (bindState (storeAll _) fun _ => ok ((writeReg _ _ _).trans (thumbNext _)))

theorem pop (list : BitVec 16) : Keeping s (popBody list s) :=
  refuseIf _ _ (bindValue _ fun _ => ite (ok (((listed _ _ _).trans (writeReg _ _ _)).trans (branchThumb _ _)))
    (ok (((listed _ _ _).trans (writeReg _ _ _)).trans (thumbNext _))))

theorem stmia (rb : LowReg) (rlist : BitVec 8) : Keeping s (stmiaBody rb rlist s) :=
  refuseIf _ _ (refuseIf _ _ (bindState (storeAll _) fun _ => ok ((setLow _ _).trans (thumbNext _))))

theorem ldmia (rb : LowReg) (rlist : BitVec 8) : Keeping s (ldmiaBody rb rlist s) :=
  refuseIf _ _ (bindValue _ fun _ => ok (((setLow _ _).trans (listed _ _ _)).trans (thumbNext _)))

theorem hiWrite (d : RegNum) (v : Word) : KeepsDriver s (thumbHiWrite d v s) := by
  unfold thumbHiWrite
  split
  · exact branchThumb _ _
  · exact (writeReg _ _ _).trans (thumbNext _)

theorem condBranch (c : Cond) (soff8 : BitVec 8) : KeepsDriver s (thumbCondBranch c soff8 s) := by
  unfold thumbCondBranch
  split
  · constructor <;> rfl
  · exact thumbNext _

theorem jump (t : State) (v : Word) : KeepsDriver t { t with pc := v } := by constructor <;> rfl

theorem flags (p : Cpsr) (v : Word) : KeepsDriver s { s with cpsr := p, pc := v } := by constructor <;> rfl

theorem shifted (rd : LowReg) (r : Word × Bool) : KeepsDriver s (thumbShifted rd r s) :=
  (setLow rd r.1).trans (by constructor <;> rfl)

theorem arithmetic (rd : LowReg) (r : AluResult) : KeepsDriver s (thumbArithmetic rd r s) :=
  (setLow rd r.result).trans (by constructor <;> rfl)

theorem logical (rd : LowReg) (v : Word) : KeepsDriver s (thumbLogical rd v s) :=
  (setLow rd v).trans (by constructor <;> rfl)

theorem thumbMultiply (rd : LowReg) (v : Word) (p : Cpsr) :
    KeepsDriver s { (s.setLow rd v) with cpsr := p, pc := s.pc + 2#32 } :=
  (setLow rd v).trans (by constructor <;> rfl)

/-! ### The ends -/

/-- An instruction whose body is conditional. -/
theorem conditional {c : Cond} {body : State → Except Refusal State} {t : State} (e : whenPassed c s body = .next t)
    (h : Keeping s (body s)) : KeepsDriver s t := by
  rcases (whenPassed_eq_next c s t body).mp e with ⟨_, h1⟩ | ⟨_, h1⟩
  · exact h t h1
  · rw [h1]; exact next s

theorem always {x : Except Refusal State} {t : State} (e : outcome x = .next t) (h : Keeping s x) : KeepsDriver s t :=
  h t ((outcome_eq_next x t).mp e)

theorem stated {t u : State} (e : (.next u : Host.Outcome State Fault Refusal) = .next t) (h : KeepsDriver s u) :
    KeepsDriver s t := by
  cases e; exact h

end Keeping

/-- No instruction changes the driver. -/
theorem exec_keepsDriver (i : Instr) (s t : State) (h : exec i s = .next t) : KeepsDriver s t := by
  cases i
  case armAnd | armEor | armSub | armRsb | armAdd | armAdc | armSbc | armRsc | armOrr | armMov | armBic | armMvn =>
    exact Keeping.conditional h (Keeping.dpWrite _ _ _ _ _)
  case armTst | armTeq | armCmp | armCmn => exact Keeping.conditional h (Keeping.dpTest _ _ _ _)
  case armMrs => exact Keeping.conditional h (Keeping.mrs _ _ _ _ _)
  case armMsrReg =>
    unfold exec execArmMsrReg at h
    exact Keeping.conditional h (Keeping.refuseIf _ _ (Keeping.refuseIf _ _ (Keeping.msr _ _ _)))
  case armMsrImm =>
    unfold exec execArmMsrImm at h
    exact Keeping.conditional h (Keeping.refuseIf _ _ (Keeping.msr _ _ _))
  case armMul =>
    unfold exec execArmMul at h
    exact Keeping.conditional h (Keeping.refuseIf _ _ (Keeping.refuseIf _ _ (Keeping.ok (Keeping.multiply _ _ _))))
  case armMla =>
    unfold exec execArmMla at h
    exact Keeping.conditional h (Keeping.refuseIf _ _ (Keeping.ok (Keeping.multiply _ _ _)))
  case armUmull | armUmlal | armSmull | armSmlal => exact Keeping.conditional h (Keeping.multiplyLong _ _ _ _ _ _ _)
  case armSwp =>
    unfold exec execArmSwp at h
    exact Keeping.conditional h
      (Keeping.refuseIf _ _ (Keeping.refuseIf _ _ (Keeping.bindValue _ fun _ => Keeping.swap _ _ _ _ _)))
  case armSwpb =>
    unfold exec execArmSwpb at h
    exact Keeping.conditional h
      (Keeping.refuseIf _ _ (Keeping.refuseIf _ _ (Keeping.bindValue _ fun _ => Keeping.swap _ _ _ _ _)))
  case armStrImmPre | armStrImmPost | armStrtImm | armStrRegPre | armStrRegPost | armStrtReg =>
    exact Keeping.conditional h (Keeping.storeWord _ _ _ _)
  case armStrbImmPre | armStrbImmPost | armStrbtImm | armStrbRegPre | armStrbRegPost | armStrbtReg =>
    exact Keeping.conditional h (Keeping.storeByte _ _ _ _)
  case armLdrImmPre | armLdrImmPost | armLdrtImm | armLdrRegPre | armLdrRegPost | armLdrtReg =>
    exact Keeping.conditional h (Keeping.loadWord _ _ _ _)
  case armLdrbImmPre | armLdrbImmPost | armLdrbtImm | armLdrbRegPre | armLdrbRegPost | armLdrbtReg =>
    exact Keeping.conditional h (Keeping.loadByte _ _ _ _)
  case armStrhImm => exact Keeping.conditional h (Keeping.storeHalfword _ _ _ _)
  case armStrhReg =>
    unfold exec execArmStrhReg at h
    exact Keeping.conditional h (Keeping.refuseIf _ _ (Keeping.storeHalfword _ _ _ _))
  case armLdrhImm | armLdrsbImm | armLdrshImm => exact Keeping.conditional h (Keeping.loadHalfword _ _ _ _ _ _)
  case armLdrhReg =>
    unfold exec execArmLdrhReg at h
    exact Keeping.conditional h (Keeping.refuseIf _ _ (Keeping.loadHalfword _ _ _ _ _ _))
  case armLdrsbReg =>
    unfold exec execArmLdrsbReg at h
    exact Keeping.conditional h (Keeping.refuseIf _ _ (Keeping.loadHalfword _ _ _ _ _ _))
  case armLdrshReg =>
    unfold exec execArmLdrshReg at h
    exact Keeping.conditional h (Keeping.refuseIf _ _ (Keeping.loadHalfword _ _ _ _ _ _))
  case armStrhDspace =>
    unfold exec execArmStrhDspace at h
    exact Keeping.conditional h (Keeping.error _)
  case armStm => exact Keeping.conditional h (Keeping.stm _ _ _ _ _)
  case armStmUser => exact Keeping.conditional h (Keeping.stmUser _ _ _ _ _)
  case armLdm => exact Keeping.conditional h (Keeping.ldm _ _ _ _ _)
  case armLdmUser => exact Keeping.conditional h (Keeping.ldmUser _ _ _ _ _)
  case armB =>
    unfold exec execArmB at h
    exact Keeping.conditional h (.ok (Keeping.jump _ _))
  case armBl =>
    unfold exec execArmBl at h
    exact Keeping.conditional h (.ok ((Keeping.writeReg _ _ _).trans (Keeping.jump _ _)))
  case armBx =>
    unfold exec execArmBx at h
    exact Keeping.conditional h (Keeping.refuseIf _ _ (Keeping.branchExchange _))
  case armSwi =>
    unfold exec execArmSwi at h
    exact Keeping.conditional h (.ok (Keeping.raiseHere _))
  case armUndefA14 | armUndefMulspace | armUndefMisc | armLdc | armStc | armCdp | armMcr | armMrc =>
    exact Keeping.conditional h (.ok (Keeping.raiseHere _))
  case thumbLslImm | thumbLsrImm | thumbAsrImm | thumbLslReg | thumbLsrReg | thumbAsrReg | thumbRorReg =>
    exact Keeping.stated h (Keeping.shifted _ _)
  case thumbAddReg | thumbSubReg | thumbAddImm3 | thumbSubImm3 | thumbAddImm8 | thumbSubImm8 | thumbAdc | thumbSbc |
      thumbNeg =>
    exact Keeping.stated h (Keeping.arithmetic _ _)
  case thumbMovImm | thumbAnd | thumbEor | thumbOrr | thumbBic | thumbMvn =>
    exact Keeping.stated h (Keeping.logical _ _)
  case thumbCmpImm | thumbTst | thumbCmpReg | thumbCmn => exact Keeping.stated h (Keeping.flags _ _)
  case thumbMul => exact Keeping.always h (Keeping.refuseIf _ _ (.ok (Keeping.thumbMultiply _ _ _)))
  case thumbAddHi | thumbMovHi => exact Keeping.always h (Keeping.refuseIf _ _ (.ok (Keeping.hiWrite _ _)))
  case thumbCmpHi => exact Keeping.always h (Keeping.refuseIf _ _ (.ok (Keeping.flags _ _)))
  case thumbBx => exact Keeping.always h (Keeping.refuseIf _ _ (Keeping.branchExchange _))
  case thumbAddPc | thumbAddSp | thumbAddSpImm | thumbSubSpImm | thumbBlHi =>
    exact Keeping.stated h ((Keeping.writeReg _ _ _).trans (Keeping.thumbNext _))
  case thumbBlLo => exact Keeping.stated h ((Keeping.writeReg _ _ _).trans (Keeping.branchThumb _ _))
  case thumbStrReg | thumbStrbReg | thumbStrImm | thumbStrbImm | thumbStrSp =>
    exact Keeping.always h (Keeping.thumbStore _ _ _)
  case thumbStrhReg | thumbStrhImm => exact Keeping.always h (Keeping.thumbStoreHalf _ _)
  case thumbLdrPc | thumbLdrReg | thumbLdrImm | thumbLdrSp => exact Keeping.always h (Keeping.thumbLoadWord _ _)
  case thumbLdrhReg | thumbLdshReg | thumbLdrhImm => exact Keeping.always h (Keeping.thumbLoad _ _ _ _)
  case thumbLdrbReg =>
    unfold exec execThumbLdrbReg at h
    exact Keeping.always h (Keeping.thumbLoad _ _ _ _)
  case thumbLdsbReg =>
    unfold exec execThumbLdsbReg at h
    exact Keeping.always h (Keeping.thumbLoad _ _ _ _)
  case thumbLdrbImm =>
    unfold exec execThumbLdrbImm at h
    exact Keeping.always h (Keeping.thumbLoad _ _ _ _)
  case thumbPush | thumbPushLr => exact Keeping.always h (Keeping.push _)
  case thumbPop | thumbPopPc => exact Keeping.always h (Keeping.pop _)
  case thumbStmia => exact Keeping.always h (Keeping.stmia _ _)
  case thumbLdmia => exact Keeping.always h (Keeping.ldmia _ _)
  case thumbBeq | thumbBne | thumbBcs | thumbBcc | thumbBmi | thumbBpl | thumbBvs | thumbBvc | thumbBhi | thumbBls |
      thumbBge | thumbBlt | thumbBgt | thumbBle =>
    exact Keeping.stated h (Keeping.condBranch _ _)
  case thumbB => exact Keeping.stated h (Keeping.jump _ _)
  case thumbSwi | thumbUndefCond | thumbUndefLong | thumbUndefMisc => exact Keeping.stated h (Keeping.raiseHere _)

end Sys2Proof.Machine
end

