-- ==== Sys2Proof/Laws/Refusals.lean ====
section
/-! SUPPORT. Laws/Refusals.lean: when a data access, a block of them or a DMA transfer is refused (20_memory R168,
70_reset_and_hazards R941), and what a DMA transfer that is not refused does. -/

namespace Sys2Proof.Machine

/-! ### One access -/

/-- A wide SRAM access by the number of its address (20_memory R152, R168). -/
theorem sramWide_iff (w : Width) (a : Word) :
    sramWide w a = true ↔ w ≠ .byte ∧ 0x0E000000 ≤ a.toNat ∧ a.toNat < 0x10000000 := by
  have ht := topByte_toNat a
  have hr : regionOf a = .sram ↔ 0x0E000000 ≤ a.toNat ∧ a.toNat < 0x10000000 := by
    generalize hr : regionOf a = r
    unfold regionOf at hr
    split at hr <;> (try split at hr) <;> subst hr <;>
      first
      | exact ⟨fun _ => (by omega), fun _ => rfl⟩
      | exact ⟨fun h => (by cases h), fun h => (by (try simp only [imp_false] at *); omega)⟩
  simp only [sramWide, regionOf_alignAddr, Bool.and_eq_true, decide_eq_true_eq, hr]

/-- Whether a store meets the window depends on its place and width, not on its value. -/
theorem hitsWindow_value (thumb : Bool) (start : Word) (w : Width) (a u v : Word) :
    hitsWindow thumb start w a u = hitsWindow thumb start w a v := by
  have h : storedKeys w a u = storedKeys w a v := by
    unfold storedKeys storedCells
    cases hr : regionOf (alignAddr w a) <;> cases w <;> simp only [hr] <;> rfl
  simp only [hitsWindow, h]

theorem load_wide (s : State) (w : Width) (a : Word) (h : sramWide w a = true) :
    s.load w a = .error .sramWideAccess := by
  simp only [State.load, h, refuseIf_true]

theorem loadRotated_wide (s : State) (a : Word) (h : sramWide .word a = true) :
    s.loadRotated a = .error .sramWideAccess := by
  simp only [State.loadRotated, load_wide s .word a h, Except.map]

theorem store_wide (s : State) (w : Width) (a v : Word) (h : sramWide w a = true) :
    s.store w a v = .error .sramWideAccess := by
  simp only [State.store, h, refuseIf_true]

theorem store_window (s : State) (w : Width) (a v : Word) (h : sramWide w a = false)
    (hw : hitsWindow s.cpsr.t (s.pc + s.instrLength) w a v = true) : s.store w a v = .error .prefetchWindowWrite := by
  simp only [State.store, h, hw, refuseIf_false, refuseIf_true]

/-! ### Blocks -/

/-- A block load is refused when some word of it lies in cartridge SRAM. -/
theorem loadAll_wide (s : State) (l : List Word) (h : ∃ a ∈ l, sramWide .word a = true) :
    s.loadAll l = .error .sramWideAccess := by
  induction l with
  | nil => simp at h
  | cons a l ih =>
    rw [State.loadAll]
    cases ha : sramWide .word a with
    | true => rw [load_wide s .word a ha]; rfl
    | false =>
      obtain ⟨b, hb, hw⟩ := h
      have hb : b ∈ l := by
        rcases List.mem_cons.mp hb with rfl | hb
        · rw [ha] at hw; cases hw
        · exact hb
      rw [load_of_admitted s .word a ha, ih ⟨b, hb, hw⟩]
      rfl

/-- A block store makes its admitted words, then goes on. -/
theorem storeAll_append (s : State) (l m : List (Word × Word)) (h : ∀ x ∈ l, storeAdmitted s .word x.1 x.2) :
    s.storeAll (l ++ m) = (s.writeWords l).storeAll m := by
  induction l generalizing s with
  | nil => rfl
  | cons x l ih =>
    obtain ⟨a, v⟩ := x
    obtain ⟨_, h2, h3, _⟩ := memWrite_keeps s .word a v
    rw [List.cons_append, State.storeAll, store_of_admitted s .word a v (h (a, v) List.mem_cons_self)]
    exact ih _ fun y hy => (storeAdmitted_congr h2 h3 .word y.1 y.2).mpr (h y (List.mem_cons_of_mem _ hy))

theorem storeAll_cons_error (s : State) (a v : Word) (l : List (Word × Word)) (r : Refusal)
    (h : s.store .word a v = .error r) : s.storeAll ((a, v) :: l) = .error r := by
  rw [State.storeAll, h]; rfl

/-- A block store whose first refused word lies in cartridge SRAM. -/
theorem storeAll_wide (s : State) (l m : List (Word × Word)) (a v : Word)
    (h : ∀ x ∈ l, storeAdmitted s .word x.1 x.2) (hw : sramWide .word a = true) :
    s.storeAll (l ++ (a, v) :: m) = .error .sramWideAccess := by
  rw [storeAll_append s l _ h]
  exact storeAll_cons_error _ a v m _ (store_wide _ .word a v hw)

/-- A block store whose first refused word meets the window. -/
theorem storeAll_window (s : State) (l m : List (Word × Word)) (a v : Word)
    (h : ∀ x ∈ l, storeAdmitted s .word x.1 x.2) (hs : sramWide .word a = false)
    (hw : hitsWindow s.cpsr.t (s.pc + s.instrLength) .word a v = true) :
    s.storeAll (l ++ (a, v) :: m) = .error .prefetchWindowWrite := by
  obtain ⟨_, h2, h3, _⟩ := writeWords_keeps s l
  rw [storeAll_append s l _ h]
  refine storeAll_cons_error _ a v m _ (store_window _ .word a v hs ?_)
  rw [State.instrLength, h2, h3]
  exact hw

/-! ### DMA transfers (00_scope R7; 10_state R69) -/

/-- One access of a DMA transfer that is not refused. -/
def State.dmaAccess (s : State) : DmaOp → State
  | .read _ _ => s.countAccess
  | .write w a v => (s.memWrite w a v).countAccess

/-- An access of a DMA transfer that is not refused at a PC, in ARM or Thumb state. -/
def dmaAdmitted (thumb : Bool) (pc : Word) : DmaOp → Prop
  | .read w a => sramWide w a = false
  | .write w a v => sramWide w a = false ∧ hitsWindow thumb pc w a v = false

theorem dmaAccess_keeps (s : State) (op : DmaOp) :
    (s.dmaAccess op).cpsr = s.cpsr ∧ (s.dmaAccess op).pc = s.pc := by
  cases op with
  | read w a => exact ⟨rfl, rfl⟩
  | write w a v => exact ⟨(memWrite_keeps s w a v).2.1, (memWrite_keeps s w a v).2.2.1⟩

theorem dmaStep_of_admitted (s : State) (op : DmaOp) (h : dmaAdmitted s.cpsr.t s.pc op) :
    s.dmaStep op = .ok (s.dmaAccess op) := by
  cases op with
  | read w a => simp only [State.dmaStep, load_of_admitted s w a h, Except.map, State.dmaAccess]
  | write w a v => simp only [State.dmaStep, State.dmaWrite, h.1, h.2, refuseIf_false, State.dmaAccess]

/-- A DMA transfer makes its admitted accesses in order, then goes on. -/
theorem dma_append (s : State) (l m : List DmaOp) (h : ∀ op ∈ l, dmaAdmitted s.cpsr.t s.pc op) :
    s.dma (l ++ m) = (l.foldl State.dmaAccess s).dma m := by
  induction l generalizing s with
  | nil => rfl
  | cons op l ih =>
    obtain ⟨hc, hp⟩ := dmaAccess_keeps s op
    rw [List.cons_append, State.dma, dmaStep_of_admitted s op (h op List.mem_cons_self)]
    exact ih _ fun q hq => by rw [hc, hp]; exact h q (List.mem_cons_of_mem _ hq)

/-- A DMA transfer all of whose accesses are admitted. -/
theorem dma_of_admitted (s : State) (l : List DmaOp) (h : ∀ op ∈ l, dmaAdmitted s.cpsr.t s.pc op) :
    s.dma l = .ok (l.foldl State.dmaAccess s) := by
  have := dma_append s l [] h
  rwa [List.append_nil] at this

theorem dmaAccess_foldl_keeps (s : State) (l : List DmaOp) :
    (l.foldl State.dmaAccess s).cpsr = s.cpsr ∧ (l.foldl State.dmaAccess s).pc = s.pc := by
  induction l generalizing s with
  | nil => exact ⟨rfl, rfl⟩
  | cons op l ih =>
    obtain ⟨hc, hp⟩ := dmaAccess_keeps s op
    obtain ⟨gc, gp⟩ := ih (s.dmaAccess op)
    exact ⟨gc.trans hc, gp.trans hp⟩

/-- A DMA transfer whose first refused access is a wide SRAM access. -/
theorem dma_wide (s : State) (l m : List DmaOp) (op : DmaOp) (w : Width) (a : Word)
    (h : ∀ op ∈ l, dmaAdmitted s.cpsr.t s.pc op) (hw : sramWide w a = true)
    (ho : op = .read w a ∨ ∃ v, op = .write w a v) : s.dma (l ++ op :: m) = .error .sramWideAccess := by
  rw [dma_append s l _ h, State.dma]
  rcases ho with rfl | ⟨v, rfl⟩
  · simp only [State.dmaStep, load_wide _ w a hw, Except.map, Except.bind]
  · simp only [State.dmaStep, State.dmaWrite, hw, refuseIf_true, Except.bind]

/-- A DMA transfer whose first refused access is a write into the next two instructions. -/
theorem dma_window (s : State) (l m : List DmaOp) (w : Width) (a v : Word)
    (h : ∀ op ∈ l, dmaAdmitted s.cpsr.t s.pc op) (hs : sramWide w a = false)
    (hw : hitsWindow s.cpsr.t s.pc w a v = true) : s.dma (l ++ .write w a v :: m) = .error .prefetchWindowWrite := by
  obtain ⟨hc, hp⟩ := dmaAccess_foldl_keeps s l
  rw [dma_append s l _ h, State.dma]
  simp only [State.dmaStep, State.dmaWrite, hs, hc, hp, hw, refuseIf_false, refuseIf_true, Except.bind]

end Sys2Proof.Machine
end

