-- ==== Sys2Proof/Laws/Step.lean ====
section
/-! SUPPORT. Laws/Step.lean: the pieces of a step: the fetch, the user-bank hazard, the environment's and the
renderer's turns. -/

namespace Sys2Proof.Machine

/-! ### The CPU step -/

/-- A fetch is admitted from BIOS, EWRAM, IWRAM and cartridge ROM (20_memory R152, R158). -/
theorem executable_iff (a : Word) : executable a = true ↔ a.toNat < 0x4000 ∨
    0x02000000 ≤ a.toNat ∧ a.toNat < 0x04000000 ∨ 0x08000000 ≤ a.toNat ∧ a.toNat < 0x0E000000 := by
  have ht := topByte_toNat a
  unfold executable
  generalize hr : regionOf a = r
  unfold regionOf at hr
  split at hr <;> (try split at hr) <;> subst hr <;>
    first
    | exact ⟨fun _ => (by omega), fun _ => rfl⟩
    | exact ⟨fun h => (by cases h), fun h => (by simp only [imp_false] at *; omega)⟩

/-- A register is banked in a mode (70_reset_and_hazards R942). -/
theorem bankedIn_iff : ∀ (m : Mode) (r : RegNum), bankedIn m r = true ↔
    m ≠ .user ∧ r ≠ 15#4 ∧ (if m = .fiq then 8 ≤ r.toNat else 13 ≤ r.toNat) := by
  intro m; cases m <;> decide +kernel

/-! ### The environment's turn -/

theorem step_env (s : State) (a : EnvAction) (rest : List Turn) (h : s.schedule = .env a :: rest) :
    step s = outcome (State.envAction { s with
      schedule := rest, phase := if s.phase = .budget then .acted else s.phase, draws := s.draws + 1 } a) := by
  unfold step; rw [h]; rfl

/-- The bytes a reset keeps (70_reset_and_hazards R921). -/
theorem get?_filter (m : List Host.Cell) (p : Nat → Bool) (hr : Memory.rising m = true) (k : Nat) :
    Memory.get? (m.filter fun c => p c.1) k = if p k then Memory.get? m k else none := by
  induction m with
  | nil => simp [Memory.get?]
  | cons c m ih =>
    obtain ⟨a, b⟩ := c
    have ⟨h1, h2⟩ := (rising_cons (a, b) m).mp hr
    have ih := ih h1
    have hb : ∀ j, j ≤ a → Memory.get? m j = none := by
      intro j hj
      have h2' : Memory.below a m = true := h2
      clear ih h1 h2 hr
      cases m with
      | nil => rfl
      | cons d m =>
        simp only [Memory.below, List.all_cons, Bool.and_eq_true, decide_eq_true_eq] at h2'
        obtain ⟨x, y⟩ := d
        simp only [Memory.get?]
        rw [if_pos (by have := h2'.1; simp at this; omega)]
    by_cases hp : p a = true
    · rw [List.filter_cons_of_pos (by exact hp)]
      simp only [Memory.get?, ih]
      by_cases h1 : k < a
      · simp [h1]
      · by_cases h2 : k = a
        · subst h2; simp [hp]
        · simp [h1, h2]
    · rw [List.filter_cons_of_neg (by exact hp), ih]
      by_cases h1 : k < a
      · simp [Memory.get?, h1, hb k (by omega)]
      · by_cases h2 : k = a
        · subst h2; simp [hp]
        · simp [Memory.get?, h1, h2]

/-! ### The renderer's turn -/

theorem step_render (s : State) (y : Fin 160) (rest : List Turn) (h : s.schedule = .render y :: rest) :
    step s = if s.line.val = y.val ∧ s.phase = .budget then
      outcome (State.renderLine { s with schedule := rest, phase := .effects, draws := s.draws + 1 } y)
    else .refused .frameOrder := by
  unfold step; rw [h]; rfl

theorem step_endLine (s : State) (rest : List Turn) (h : s.schedule = .endLine :: rest) :
    step s = if s.line.val < 160 ∧ s.phase ≠ .effects then .refused .frameOrder
    else .next { s with schedule := rest, line := s.line + 1, phase := .budget } := by
  unfold step; rw [h]; rfl

/-- A CPU step belongs to the current line's budget, or opens the next line's. -/
theorem beginBudget_eq (s : State) : s.beginBudget =
    { s with line := if s.phase = .effects then s.line + 1 else s.line, phase := .budget } := by
  unfold State.beginBudget State.nextLine; split <;> rfl

/-- The rows of the frame after one is written. -/
theorem rowOf_setRow (f : List (Nat × Vector Rgb 240)) (y z : Nat) (r : Vector Rgb 240) :
    rowOf (setRow f y r) z = if z = y then some r else rowOf f z := by
  induction f with
  | nil => simp [setRow, rowOf, eq_comm]
  | cons c f ih =>
    obtain ⟨k, o⟩ := c
    unfold setRow
    split
    · simp [rowOf, eq_comm]
    · split
      · subst_vars; simp only [rowOf]; by_cases e : z = k <;> simp [e, eq_comm]
      · simp only [rowOf, ih]
        by_cases e : k = z
        · subst e; simp; intro h; omega
        · simp [e]

/-- An OAM halfword depends on memory and the resets alone. -/
theorem oamHalf_congr {s t : State} (hm : t.mem = s.mem) (hp : t.powerOns = s.powerOns) (o : Nat) :
    t.oamHalf o = s.oamHalf o := by
  have h : ∀ k, k < 0x400 → t.memByte (0x07000000 + k) = s.memByte (0x07000000 + k) := fun k hk => by
    unfold State.memByte unlistedByte
    rw [hm, hp]
    repeat rw [if_neg (by omega)]
  unfold State.oamHalf
  rw [h _ (Nat.mod_lt _ (by decide)), h _ (Nat.mod_lt _ (by decide))]

/-- Which lines are refused depends on memory, the resets and the I/O page alone. -/
theorem objRefused_congr {s t : State} (hm : t.mem = s.mem) (hp : t.powerOns = s.powerOns) (hi : t.io = s.io)
    (y : Nat) : t.objRefused y = s.objRefused y := by
  have ha : ∀ i, t.objAttr i = s.objAttr i := fun i => by
    simp only [State.objAttr, oamHalf_congr hm hp]
  simp only [State.objRefused, State.dispcntBit, State.ioRaw, ha, hi]

end Sys2Proof.Machine
end

