-- ==== Sys2Proof/Laws/Renderer.lean ====
section
/-! SUPPORT. Laws/Renderer.lean: what a renderer step that is not refused leaves (47_compositor R700, R701). -/

namespace Sys2Proof.Machine

/-- Everything but the frame, the line buffers and the internal reference registers is as before. -/
structure KeepsAllButRender (s t : State) : Prop where
  regs : t.regs = s.regs
  cpsr : t.cpsr = s.cpsr
  spsrs : t.spsrs = s.spsrs
  pc : t.pc = s.pc
  cycles : t.cycles = s.cycles
  userBankHazard : t.userBankHazard = s.userBankHazard
  mem : t.mem = s.mem
  io : t.io = s.io
  line : t.line = s.line
  phase : t.phase = s.phase
  envEvents : t.envEvents = s.envEvents
  schedule : t.schedule = s.schedule
  draws : t.draws = s.draws
  powerOns : t.powerOns = s.powerOns

theorem KeepsAllButRender.trans {s t u : State} (h : KeepsAllButRender s t) (g : KeepsAllButRender t u) :
    KeepsAllButRender s u :=
  ⟨g.1.trans h.1, g.2.trans h.2, g.3.trans h.3, g.4.trans h.4, g.5.trans h.5, g.6.trans h.6, g.7.trans h.7,
    g.8.trans h.8, g.9.trans h.9, g.10.trans h.10, g.11.trans h.11, g.12.trans h.12, g.13.trans h.13, g.14.trans h.14⟩

theorem latchAffine_keeps (s : State) : KeepsAllButRender s s.latchAffine := by constructor <;> rfl

theorem startLine_keeps (s : State) (y : Fin 160) : KeepsAllButRender s (s.startLine y) := by
  unfold State.startLine
  split
  · exact latchAffine_keeps s
  · constructor <;> rfl

theorem produceBackgrounds_keeps (s : State) (y : Nat) : KeepsAllButRender s (s.produceBackgrounds y) := by
  unfold State.produceBackgrounds; constructor <;> rfl

theorem produceSprites_keeps (s : State) (y : Nat) : KeepsAllButRender s (s.produceSprites y) := by
  unfold State.produceSprites; constructor <;> rfl

theorem writeRow_keeps (s : State) (y : Fin 160) : KeepsAllButRender s (s.writeRow y) := by
  unfold State.writeRow; constructor <;> rfl

theorem advanceAffine_keeps (s : State) : KeepsAllButRender s s.advanceAffine := by
  unfold State.advanceAffine; constructor <;> rfl

/-- The line of background layer k after the producers (48_bg_producers R760). -/
theorem produceBackgrounds_bgLine (s : State) (y : Nat) (k : Fin 4) :
    (s.produceBackgrounds y).bgLine[k] = match s.producedKind k with
      | some kind => Vector.ofFn fun (x : Fin 240) => s.layerPixel kind k x.val y
      | none => s.bgLine[k] := by
  unfold State.produceBackgrounds
  exact Vector.getElem_ofFn k.isLt

theorem produceBackgrounds_bgPresent (s : State) (y : Nat) (k : Fin 4) :
    (s.produceBackgrounds y).bgPresent[k] = (s.producedKind k).isSome := by
  unfold State.produceBackgrounds
  exact Vector.getElem_ofFn k.isLt

theorem produceBackgrounds_frame (s : State) (y : Nat) : (s.produceBackgrounds y).frame = s.frame := by
  unfold State.produceBackgrounds; rfl

theorem produceBackgrounds_affine (s : State) (y : Nat) :
    (s.produceBackgrounds y).bg2xInt = s.bg2xInt ∧ (s.produceBackgrounds y).bg2yInt = s.bg2yInt ∧
      (s.produceBackgrounds y).bg3xInt = s.bg3xInt ∧ (s.produceBackgrounds y).bg3yInt = s.bg3yInt := by
  unfold State.produceBackgrounds; exact ⟨rfl, rfl, rfl, rfl⟩

/-- The sprite line and its metadata (49_sprite_producer R820). -/
theorem produceSprites_objLine (s : State) (y : Nat) (x : Fin 240) :
    (s.produceSprites y).objLine[x] = (s.objCell x.val y).colour := by
  unfold State.produceSprites
  exact Vector.getElem_ofFn x.isLt

theorem produceSprites_objMeta (s : State) (y : Nat) (x : Fin 240) :
    (s.produceSprites y).objMeta[x] = (s.objCell x.val y).metaByte := by
  unfold State.produceSprites
  exact Vector.getElem_ofFn x.isLt

theorem produceSprites_others (s : State) (y : Nat) :
    (s.produceSprites y).frame = s.frame ∧ (s.produceSprites y).bgLine = s.bgLine ∧
      (s.produceSprites y).bgPresent = s.bgPresent ∧ (s.produceSprites y).bg2xInt = s.bg2xInt ∧
      (s.produceSprites y).bg2yInt = s.bg2yInt ∧ (s.produceSprites y).bg3xInt = s.bg3xInt ∧
      (s.produceSprites y).bg3yInt = s.bg3yInt := by
  unfold State.produceSprites; exact ⟨rfl, rfl, rfl, rfl, rfl, rfl, rfl⟩

/-- The state whose line buffers a renderer step fills: the internal reference registers latched at line 0. -/
def State.produced (s : State) (y : Fin 160) : State :=
  ((s.startLine y).produceBackgrounds y.val).produceSprites y.val

theorem produced_keeps (s : State) (y : Fin 160) : KeepsAllButRender s (s.produced y) :=
  ((startLine_keeps s y).trans (produceBackgrounds_keeps _ _)).trans (produceSprites_keeps _ _)

/-! ### What the output depends on (47_compositor R714) -/

/-- The backdrop depends on memory and the resets alone. -/
theorem backdrop_congr {s t : State} (hm : t.mem = s.mem) (hp : t.powerOns = s.powerOns) : t.backdrop = s.backdrop := by
  have h : ∀ k, k < 0x400 → t.memByte (0x05000000 + k) = s.memByte (0x05000000 + k) := fun k hk => by
    unfold State.memByte unlistedByte
    rw [hm, hp]
    repeat rw [if_neg (by omega)]
  simp only [State.backdrop, State.paletteHalf]
  rw [h _ (Nat.mod_lt _ (by decide)), h _ (Nat.mod_lt _ (by decide))]

theorem compose_congr {s t : State} (hi : t.io = s.io) (hb : t.bgLine = s.bgLine) (hp : t.bgPresent = s.bgPresent)
    (ho : t.objLine = s.objLine) (hm : t.objMeta = s.objMeta) (hc : t.backdrop = s.backdrop) (x : Fin 240) (y : Nat) :
    t.compose x y = s.compose x y := by
  have hr : ∀ r, t.ioRaw r = s.ioRaw r := fun r => by simp only [State.ioRaw, hi]
  have hd : ∀ i, t.dispcntBit i = s.dispcntBit i := fun i => by simp only [State.dispcntBit, hr]
  have hk : ∀ k, t.bgCnt k = s.bgCnt k := fun k => by unfold State.bgCnt; split <;> exact hr _
  have hs : ∀ l, t.isSource l = s.isSource l := fun l => by simp only [State.isSource, hr]
  have ht : ∀ l, t.isTarget l = s.isTarget l := fun l => by simp only [State.isTarget, hr]
  have hw : t.windowControl x y = s.windowControl x y := by simp only [State.windowControl, hd, hr, hm]
  have hbg : ∀ ctl p k r, t.walkBg ctl x p k r = s.walkBg ctl x p k r := fun ctl p k r => by
    simp only [State.walkBg, State.bgEnabled, hd, hk, hb, hp]; rfl
  have hob : ∀ ctl p r, t.walkObj ctl x p r = s.walkObj ctl x p r := fun ctl p r => by
    simp only [State.walkObj, hd, ho, hm]
  have hl : ∀ ctl, t.walk ctl x = s.walk ctl x := fun ctl => by
    have h : t.walkPriority ctl x = s.walkPriority ctl x := by
      funext r p
      simp only [State.walkPriority, hbg, hob]
    simp only [State.walk, State.freshRecord, h, hc]
  have hx : ∀ b r, t.blend b r = s.blend b r := fun b r => by
    simp only [State.blend, State.blendMode, State.alphaOrPlain, State.eva, State.evb, State.evy, hr, hs, ht]; rfl
  simp only [State.compose, hd, hw, hl, hx]

/-! ### The whole renderer step -/

/-- The internal reference registers a line starts with. -/
theorem startLine_references (s : State) (y : Fin 160) :
    (s.startLine y).affine2 = (if y.val = 0 then s.latchAffine else s).affine2 ∧
      (s.startLine y).affine3 = (if y.val = 0 then s.latchAffine else s).affine3 ∧
      (s.startLine y).frame = s.frame ∧ (s.startLine y).bgLine = s.bgLine := by
  unfold State.startLine
  split <;> exact ⟨rfl, rfl, rfl, rfl⟩

/-- The state after a renderer step that is not refused. -/
def State.rendered (s : State) (y : Fin 160) : State := ((s.produced y).writeRow y).advanceAffine

theorem rendered_keeps (s : State) (y : Fin 160) : KeepsAllButRender s (s.rendered y) :=
  ((produced_keeps s y).trans (writeRow_keeps _ y)).trans (advanceAffine_keeps _)

/-- A renderer step in its turn: the two refusals, or the rendered state. -/
theorem step_render_next (s : State) (y : Fin 160) (rest : List Turn) (h : s.schedule = .render y :: rest)
    (hl : s.line.val = y.val) (hp : s.phase = .budget) :
    step s = if 6 ≤ s.bgMode then .refused .bgMode67
      else if s.objRefused y.val = true then .refused .objProhibitedAttribute
      else .next (State.rendered { s with schedule := rest, phase := .effects, draws := s.draws + 1 } y) := by
  rw [step_render s y rest h, if_pos ⟨hl, hp⟩]
  have hr := objRefused_congr (s := s) (t := { s with schedule := rest, phase := .effects, draws := s.draws + 1 })
    rfl rfl rfl y.val
  have hm : State.bgMode { s with schedule := rest, phase := .effects, draws := s.draws + 1 } = s.bgMode := rfl
  unfold State.renderLine
  rw [hr, hm]
  by_cases h1 : 6 ≤ s.bgMode
  · rw [if_pos h1, decide_eq_true h1]; rfl
  · rw [if_neg h1, decide_eq_false h1]
    cases h2 : s.objRefused y.val <;> rfl

/-- The row written is the composition of the state the step leaves; the other rows are as before. -/
theorem rendered_rows (s : State) (y : Fin 160) :
    rowOf (s.rendered y).frame y.val = some (Vector.ofFn fun x => (s.rendered y).compose x y.val) ∧
      ∀ z, z ≠ y.val → rowOf (s.rendered y).frame z = rowOf s.frame z := by
  have hf : (s.produced y).frame = s.frame := (produceSprites_others _ y.val).1.trans
    ((produceBackgrounds_frame _ y.val).trans (startLine_references s y).2.2.1)
  unfold State.rendered
  generalize s.produced y = w at *
  have kw := (writeRow_keeps w y).trans (advanceAffine_keeps _)
  have c1 : ((w.writeRow y).advanceAffine).bgLine = w.bgLine := rfl
  have c2 : ((w.writeRow y).advanceAffine).bgPresent = w.bgPresent := rfl
  have c3 : ((w.writeRow y).advanceAffine).objLine = w.objLine := rfl
  have c4 : ((w.writeRow y).advanceAffine).objMeta = w.objMeta := rfl
  have cc : ∀ x, ((w.writeRow y).advanceAffine).compose x y.val = w.compose x y.val := fun x =>
    compose_congr kw.io c1 c2 c3 c4 (backdrop_congr kw.mem kw.powerOns) x y.val
  have hr : ((w.writeRow y).advanceAffine).frame = setRow s.frame y.val (w.composeRow y) := by rw [← hf]; rfl
  simp only [cc, hr]
  exact ⟨(rowOf_setRow _ _ _ _).trans (if_pos rfl), fun z hz => (rowOf_setRow _ _ _ _).trans (if_neg hz)⟩

/-- The lines of the background layers after the step. -/
theorem rendered_backgrounds (s : State) (y : Fin 160) (k : Fin 4) :
    (s.rendered y).bgPresent[k] = ((s.startLine y).producedKind k).isSome ∧
      (s.rendered y).bgLine[k] = match (s.startLine y).producedKind k with
        | some kind => Vector.ofFn fun (x : Fin 240) => (s.startLine y).layerPixel kind k x.val y.val
        | none => (s.startLine y).bgLine[k] := by
  have h1 := produceBackgrounds_bgPresent (s.startLine y) y.val k
  have h2 := produceBackgrounds_bgLine (s.startLine y) y.val k
  obtain ⟨_, p1, p2, _⟩ := produceSprites_others ((s.startLine y).produceBackgrounds y.val) y.val
  refine ⟨?_, Eq.trans ?_ h2⟩
  · rw [← h1, ← p2]; rfl
  · exact congrArg (fun z : Vector (Vector Half 240) 4 => z[k]) p1

/-- The sprite line after the step. -/
theorem rendered_sprites (s : State) (y : Fin 160) (x : Fin 240) :
    (s.rendered y).objLine[x] = (((s.startLine y).produceBackgrounds y.val).objCell x.val y.val).colour ∧
      (s.rendered y).objMeta[x] = (((s.startLine y).produceBackgrounds y.val).objCell x.val y.val).metaByte :=
  ⟨produceSprites_objLine _ _ x, produceSprites_objMeta _ _ x⟩

end Sys2Proof.Machine
end

