-- ==== Sys2Proof/Laws/Sprites.lean ====
section
/-! SUPPORT. Laws/Sprites.lean: the loop of the sprite producer over the sprites in OAM order (49_sprite_producer
R820). -/

namespace Sys2Proof.Machine

theorem ObjAttr.priority_lt (a : ObjAttr) : a.priority < 4 := (a.attr2.extractLsb' 10 2).isLt

/-- One entry of the OBJ line after the first n sprites, sprite i of attributes `A i` having the colour `px i` there: the
window flag where a window sprite is opaque; else the opaque sprite of smallest priority, the first on a tie; empty where
there is none. -/
structure ObjCell.Holds (A : Nat → ObjAttr) (px : Nat → Half) (n : Nat) (c : ObjCell) : Prop where
  window : c.window = true ↔ ∃ i < n, (A i).mode = 2 ∧ (px i).getLsbD 15 = true
  first : ((∀ i < n, (px i).getLsbD 15 = true → (A i).mode = 2) ∧ c.colour = 0#16 ∧ c.prio = 0#3 ∧ c.semi = false) ∨
    ∃ b < n, (A b).mode ≠ 2 ∧ (px b).getLsbD 15 = true ∧
      (∀ j < n, (A j).mode ≠ 2 → (px j).getLsbD 15 = true →
        (A b).priority < (A j).priority ∨ (A b).priority = (A j).priority ∧ b ≤ j) ∧
      c.colour = px b ∧ c.prio = BitVec.ofNat 3 ((A b).priority + 1) ∧ c.semi = decide ((A b).mode = 1)

theorem exists_lt_succ (n : Nat) (P : Nat → Prop) : (∃ i < n + 1, P i) ↔ (∃ i < n, P i) ∨ P n := by
  simp only [Nat.lt_succ_iff_lt_or_eq, or_and_right, exists_or, exists_eq_left]

theorem forall_lt_succ (n : Nat) (P : Nat → Prop) : (∀ i < n + 1, P i) ↔ (∀ i < n, P i) ∧ P n := by
  simp only [Nat.lt_succ_iff_lt_or_eq, or_imp, forall_and, forall_eq]

/-- One more sprite. -/
theorem ObjCell.Holds.draw {A : Nat → ObjAttr} {px : Nat → Half} {n : Nat} {c : ObjCell} (h : ObjCell.Holds A px n c) :
    ObjCell.Holds A px (n + 1) (c.draw (A n) (px n)) := by
  obtain ⟨hw, hb⟩ := h
  unfold ObjCell.draw
  simp only []
  by_cases ho : (px n).getLsbD 15 = true
  · rw [ho]; simp only [Bool.not_true, Bool.false_eq_true, if_false]
    by_cases hm : (A n).mode = 2
    · rw [if_pos hm]
      refine ⟨by rw [exists_lt_succ]; exact iff_of_true rfl (.inr ⟨hm, ho⟩), ?_⟩
      rcases hb with ⟨h1, h2⟩ | ⟨b, hbn, h1, h2, h3, h4⟩
      · exact .inl ⟨by rw [forall_lt_succ]; exact ⟨h1, fun _ => hm⟩, h2⟩
      · exact .inr ⟨b, by omega, h1, h2, by rw [forall_lt_succ]; exact ⟨h3, fun e => absurd hm e⟩, h4⟩
    · rw [if_neg hm]
      have hw' : c.window = true ↔ ∃ i < n + 1, (A i).mode = 2 ∧ (px i).getLsbD 15 = true := by
        rw [exists_lt_succ, hw]; exact ⟨.inl, fun e => e.resolve_right fun g => hm g.1⟩
      have pn := (A n).priority_lt
      have newest : (∀ j < n, (A j).mode ≠ 2 → (px j).getLsbD 15 = true → (A n).priority < (A j).priority) →
          ∀ j < n + 1, (A j).mode ≠ 2 → (px j).getLsbD 15 = true →
            (A n).priority < (A j).priority ∨ (A n).priority = (A j).priority ∧ n ≤ j := by
        intro g; rw [forall_lt_succ]
        exact ⟨fun j hj a b => .inl (g j hj a b), fun _ _ => .inr ⟨rfl, Nat.le_refl n⟩⟩
      rcases hb with ⟨h1, h2, h3, h4⟩ | ⟨b, hbn, h1, h2, h3, h4, h5, h6⟩
      · rw [if_pos (.inl h3)]
        exact ⟨hw', .inr ⟨n, by omega, hm, ho, newest fun j hj a b => absurd (h1 j hj b) a, rfl, rfl, rfl⟩⟩
      · have pb := (A b).priority_lt
        have hcmp : (c.prio = 0#3 ∨ BitVec.ofNat 3 ((A n).priority + 1) < c.prio) ↔ (A n).priority < (A b).priority := by
          rw [h5]
          generalize (A n).priority = p at *
          generalize (A b).priority = q at *
          interval_cases p <;> interval_cases q <;> decide
        by_cases hl : (A n).priority < (A b).priority
        · rw [if_pos (hcmp.mpr hl)]
          refine ⟨hw', .inr ⟨n, by omega, hm, ho, newest fun j hj a e => ?_, rfl, rfl, rfl⟩⟩
          have := h3 j hj a e; omega
        · rw [if_neg (fun e => hl (hcmp.mp e))]
          exact ⟨hw', .inr ⟨b, by omega, h1, h2, by rw [forall_lt_succ]; exact ⟨h3, fun _ _ => by omega⟩, h4, h5, h6⟩⟩
  · have ho' : (px n).getLsbD 15 = false := by simpa using ho
    rw [ho']; simp only [Bool.not_false, if_true]
    refine ⟨by rw [exists_lt_succ, hw]; exact ⟨.inl, fun e => e.resolve_right fun g => ho g.2⟩, ?_⟩
    rcases hb with ⟨h1, h2⟩ | ⟨b, hbn, h1, h2, h3, h4⟩
    · exact .inl ⟨by rw [forall_lt_succ]; exact ⟨h1, fun e => absurd e ho⟩, h2⟩
    · exact .inr ⟨b, by omega, h1, h2, by rw [forall_lt_succ]; exact ⟨h3, fun _ e => absurd e ho⟩, h4⟩

/-- The whole loop. -/
theorem objLoop_holds (A : Nat → ObjAttr) (px : Nat → Half) (n : Nat) :
    ObjCell.Holds A px n ((List.range n).foldl (fun c i => c.draw (A i) (px i))
      { colour := 0#16, prio := 0#3, window := false, semi := false }) := by
  induction n with
  | zero => exact ⟨by simp, .inl ⟨by simp, rfl, rfl, rfl⟩⟩
  | succ n ih => rw [List.range_succ, List.foldl_append]; exact ih.draw

/-- The entry of a line with sprites on. -/
theorem objCell_holds (s : State) (x y : Nat) (h : s.dispcntBit 12 = true) :
    ObjCell.Holds s.objAttr (fun i => s.objPixel (s.objAttr i) x y) 128 (s.objCell x y) := by
  unfold State.objCell
  rw [if_pos h]
  exact objLoop_holds s.objAttr _ 128

end Sys2Proof.Machine
end

