-- ==== Sys2Proof/Laws/Status.lean ====
section
/-! SUPPORT. Laws/Status.lean: CPSR as a word and the restore from an SPSR (10_state R57; 60_exceptions R880). -/

namespace Sys2Proof.Machine

/-- Every bit of CPSR (10_state R57). -/
theorem toWord_getLsbD (p : Cpsr) (i : Nat) (hi : i < 32) : p.toWord.getLsbD i =
    (if i < 5 then p.mode.bits.getLsbD i else if i = 5 then p.t else if i = 6 then true else if i = 7 then p.i
      else if i < 28 then false else if i = 28 then p.v else if i = 29 then p.c else if i = 30 then p.z else p.n) := by
  simp only [Cpsr.toWord, BitVec.getLsbD_append]
  interval_cases i <;> simp

theorem toWord_mode (p : Cpsr) : p.toWord.extractLsb' 0 5 = p.mode.bits := by
  apply BitVec.eq_of_getLsbD_eq
  intro i hi
  simp only [BitVec.getLsbD_extractLsb', hi, decide_true, Bool.true_and]
  rw [toWord_getLsbD _ _ (by omega)]
  simp [hi]

theorem toWord_reserved (p : Cpsr) : p.toWord.extractLsb' 8 20 = 0#20 := by
  apply BitVec.eq_of_getLsbD_eq
  intro i hi
  simp only [BitVec.getLsbD_extractLsb', hi, decide_true, Bool.true_and]
  rw [toWord_getLsbD _ _ (by omega)]
  simp [show ¬ (8 + i < 5) by omega, show ¬ (8 + i = 5) by omega, show ¬ (8 + i = 6) by omega,
    show ¬ (8 + i = 7) by omega, show 8 + i < 28 by omega]

theorem ofBits?_eq_some : ∀ (b : BitVec 5) (m : Mode), Mode.ofBits? b = some m ↔ m.bits = b := by
  intro b m; revert b; cases m <;> decide +kernel

/-- The CPSR a word gives back when its mode field is legal: F reads 1, bits 27..8 read 0 (60_exceptions R880). -/
theorem ofWord_toWord (v : Word) (m : Mode) (h : Mode.ofBits? (v.extractLsb' 0 5) = some m) :
    (Cpsr.ofWord v m).toWord = (v &&& 0xF00000FF#32) ||| 0x40#32 := by
  have hm := (ofBits?_eq_some _ _).mp h
  apply BitVec.eq_of_getLsbD_eq
  intro i hi
  rw [toWord_getLsbD _ _ hi]
  simp only [Cpsr.ofWord, hm, BitVec.getLsbD_or, BitVec.getLsbD_and, BitVec.getLsbD_extractLsb']
  interval_cases i <;> simp

/-- A CPSR stored and restored is the same (60_exceptions R882). -/
theorem ofWord_of_toWord (p : Cpsr) : Cpsr.ofWord p.toWord p.mode = p := by
  simp only [Cpsr.ofWord]
  rw [toWord_getLsbD _ _ (by omega), toWord_getLsbD _ _ (by omega), toWord_getLsbD _ _ (by omega),
    toWord_getLsbD _ _ (by omega), toWord_getLsbD _ _ (by omega), toWord_getLsbD _ _ (by omega)]
  simp

theorem toWord_injective (p q : Cpsr) (h : p.toWord = q.toWord) : p = q := by
  have hm : p.mode = q.mode := by
    have h1 := (ofBits?_eq_some _ _).mpr (toWord_mode p).symm
    have h2 := (ofBits?_eq_some _ _).mpr (toWord_mode q).symm
    rw [h, h2] at h1
    exact (Option.some.inj h1).symm
  rw [← ofWord_of_toWord p, ← ofWord_of_toWord q, h, hm]

/-- The restore, once the SPSR exists and holds a legal mode. -/
theorem restoreCpsr_ok (s : State) (v : Word) (m : Mode) (hv : s.spsrs.get? s.cpsr.mode = some v)
    (hm : Mode.ofBits? (v.extractLsb' 0 5) = some m) : s.restoreCpsr = .ok { s with cpsr := Cpsr.ofWord v m } := by
  simp [State.restoreCpsr, hv, hm]

/-- Everything a successful restore has done. -/
theorem restoreCpsr_eq_ok (s t : State) (h : s.restoreCpsr = .ok t) :
    ∃ v m, s.spsrs.get? s.cpsr.mode = some v ∧ Mode.ofBits? (v.extractLsb' 0 5) = some m ∧
      t = { s with cpsr := Cpsr.ofWord v m } := by
  unfold State.restoreCpsr at h
  split at h
  · cases h
  · rename_i v hv
    split at h
    · cases h
    · rename_i m hm
      exact ⟨v, m, hv, hm, (Except.ok.inj h).symm⟩

theorem spsrs_eq_none (l : Spsrs) (m : Mode) : l.get? m = none ↔ m = .user ∨ m = .sys := by
  cases m <;> simp [Spsrs.get?]

theorem spsrs_set_same (l : Spsrs) (m : Mode) (v old : Word) (h : l.get? m = some old) :
    (l.set m v).get? m = some v := by
  cases m <;> simp_all [Spsrs.get?, Spsrs.set]

theorem spsrs_set_ne (l : Spsrs) (m n : Mode) (v : Word) (h : n ≠ m) : (l.set m v).get? n = l.get? n := by
  cases m <;> cases n <;> simp_all [Spsrs.get?, Spsrs.set]

/-- One bit of a masked merge. -/
theorem mergeMasked_getLsbD (old v mask : Word) (i : Nat) (hi : i < 32) :
    (mergeMasked old v mask).getLsbD i = if mask.getLsbD i then v.getLsbD i else old.getLsbD i := by
  simp only [mergeMasked, BitVec.getLsbD_or, BitVec.getLsbD_and, BitVec.getLsbD_not, hi, decide_true, Bool.true_and]
  cases mask.getLsbD i <;> simp

/-- The bits MSR writes (41_arm_dataproc R417). -/
theorem msrByteMask_getLsbD : ∀ (mask : BitVec 4), ∀ i < 32, (msrByteMask mask).getLsbD i =
    ((decide (28 ≤ i) && mask.getLsbD 3) || (decide (i < 8) && mask.getLsbD 0)) := by
  decide +kernel

end Sys2Proof.Machine
end

