-- ==== Sys2Proof/Tests/Slice0.lean ====
section
/-! SUPPORT. Tests/Slice0.lean: the author's tests. A word of every instruction written out from the spec's encoding and
decoded; the worked vectors of the spec run for one step each; an ill-formed term for each check of WellFormed; and a
concrete state and operands for the hypotheses of every obligation. -/

open Sys2Proof Sys2Proof.Machine

namespace Sys2Proof.Tests

set_option Elab.async false

/-! ### Decoding: the words are written out bit by bit (30_encoding R253, R292) -/

/-- One word of every instruction of the family, its fields written out from the opcode table. -/
theorem test_decode_arm_data_processing :
    decodeArm 0b1110_00_1_0000_1_0001_0010_0011_10100101#32 = .armAnd .al true 1#4 2#4 (.imm 3#4 0xA5#8) ∧
    decodeArm 0b1110_00_0_0001_0_0001_0010_10011_10_0_0100#32 = .armEor .al false 1#4 2#4 (.shiftImm 0x13#5 .asr 4#4) ∧
    decodeArm 0b1110_00_0_0010_1_0001_0010_0011_0_11_1_0100#32 = .armSub .al true 1#4 2#4 (.shiftReg 3#4 .ror 4#4) ∧
    decodeArm 0b1110_00_1_0011_0_0001_0010_0011_10100101#32 = .armRsb .al false 1#4 2#4 (.imm 3#4 0xA5#8) ∧
    decodeArm 0b1110_00_0_0100_1_0001_0010_10011_10_0_0100#32 = .armAdd .al true 1#4 2#4 (.shiftImm 0x13#5 .asr 4#4) ∧
    decodeArm 0b1110_00_0_0101_0_0001_0010_0011_0_11_1_0100#32 = .armAdc .al false 1#4 2#4 (.shiftReg 3#4 .ror 4#4) ∧
    decodeArm 0b1110_00_1_0110_1_0001_0010_0011_10100101#32 = .armSbc .al true 1#4 2#4 (.imm 3#4 0xA5#8) ∧
    decodeArm 0b1110_00_0_0111_0_0001_0010_10011_10_0_0100#32 = .armRsc .al false 1#4 2#4 (.shiftImm 0x13#5 .asr 4#4) ∧
    decodeArm 0b1110_00_0_1000_1_0001_0000_0011_0_11_1_0100#32 = .armTst .al 1#4 0#4 (.shiftReg 3#4 .ror 4#4) ∧
    decodeArm 0b1110_00_1_1001_1_0001_0000_0011_10100101#32 = .armTeq .al 1#4 0#4 (.imm 3#4 0xA5#8) ∧
    decodeArm 0b1110_00_0_1010_1_0001_0000_10011_10_0_0100#32 = .armCmp .al 1#4 0#4 (.shiftImm 0x13#5 .asr 4#4) ∧
    decodeArm 0b1110_00_0_1011_1_0001_0000_0011_0_11_1_0100#32 = .armCmn .al 1#4 0#4 (.shiftReg 3#4 .ror 4#4) ∧
    decodeArm 0b1110_00_1_1100_1_0001_0010_0011_10100101#32 = .armOrr .al true 1#4 2#4 (.imm 3#4 0xA5#8) ∧
    decodeArm 0b1110_00_0_1101_0_0000_0010_10011_10_0_0100#32 = .armMov .al false 0#4 2#4 (.shiftImm 0x13#5 .asr 4#4) ∧
    decodeArm 0b1110_00_0_1110_1_0001_0010_0011_0_11_1_0100#32 = .armBic .al true 1#4 2#4 (.shiftReg 3#4 .ror 4#4) ∧
    decodeArm 0b1110_00_1_1111_0_0000_0010_0011_10100101#32 = .armMvn .al false 0#4 2#4 (.imm 3#4 0xA5#8) := by decide +kernel

/-- One word of every instruction of the family, its fields written out from the opcode table. -/
theorem test_decode_arm_status :
    decodeArm 0b1110_00010_1_00_1111_0010_000000000000#32 = .armMrs .al true 15#4 2#4 0#4 0#4 ∧
    decodeArm 0b1110_00010_1_10_1001_1111_0000_0000_0100#32 = .armMsrReg .al true 9#4 15#4 0#4 4#4 ∧
    decodeArm 0b1110_00110_1_10_1001_1111_1001_10100101#32 = .armMsrImm .al true 9#4 15#4 9#4 0xA5#8 := by decide +kernel

/-- One word of every instruction of the family, its fields written out from the opcode table. -/
theorem test_decode_arm_multiply_swap :
    decodeArm 0b1110_0000000_1_0010_0000_0011_1001_0100#32 = .armMul .al true 2#4 0#4 3#4 4#4 ∧
    decodeArm 0b1110_0000001_1_0010_0001_0011_1001_0100#32 = .armMla .al true 2#4 1#4 3#4 4#4 ∧
    decodeArm 0b1110_0000100_1_0101_0110_0011_1001_0100#32 = .armUmull .al true 5#4 6#4 3#4 4#4 ∧
    decodeArm 0b1110_0000101_1_0101_0110_0011_1001_0100#32 = .armUmlal .al true 5#4 6#4 3#4 4#4 ∧
    decodeArm 0b1110_0000110_1_0101_0110_0011_1001_0100#32 = .armSmull .al true 5#4 6#4 3#4 4#4 ∧
    decodeArm 0b1110_0000111_1_0101_0110_0011_1001_0100#32 = .armSmlal .al true 5#4 6#4 3#4 4#4 ∧
    decodeArm 0b1110_00010000_0001_0010_0000_1001_0100#32 = .armSwp .al 1#4 2#4 0#4 4#4 ∧
    decodeArm 0b1110_00010100_0001_0010_0000_1001_0100#32 = .armSwpb .al 1#4 2#4 0#4 4#4 := by decide +kernel

/-- One word of every instruction of the family, its fields written out from the opcode table. -/
theorem test_decode_arm_halfword :
    decodeArm 0b1110_000_1_0_0_1_0_0001_0010_0000_1011_0100#32 = .armStrhReg .al true false true 1#4 2#4 0#4 4#4 ∧
    decodeArm 0b1110_000_1_0_1_1_0_0001_0010_1001_1011_1001#32 = .armStrhImm .al true false true 1#4 2#4 9#4 9#4 ∧
    decodeArm 0b1110_000_1_0_0_1_1_0001_0010_0000_1011_0100#32 = .armLdrhReg .al true false true 1#4 2#4 0#4 4#4 ∧
    decodeArm 0b1110_000_1_0_1_1_1_0001_0010_1001_1011_1001#32 = .armLdrhImm .al true false true 1#4 2#4 9#4 9#4 ∧
    decodeArm 0b1110_000_1_0_0_1_1_0001_0010_0000_1101_0100#32 = .armLdrsbReg .al true false true 1#4 2#4 0#4 4#4 ∧
    decodeArm 0b1110_000_1_0_1_1_1_0001_0010_1001_1101_1001#32 = .armLdrsbImm .al true false true 1#4 2#4 9#4 9#4 ∧
    decodeArm 0b1110_000_1_0_0_1_1_0001_0010_0000_1111_0100#32 = .armLdrshReg .al true false true 1#4 2#4 0#4 4#4 ∧
    decodeArm 0b1110_000_1_0_1_1_1_0001_0010_1001_1111_1001#32 = .armLdrshImm .al true false true 1#4 2#4 9#4 9#4 ∧
    decodeArm 0b1110_000_1_1_1_0_0_0001_0010_0011_1_11_1_0100#32 = .armStrhDspace .al 14#4 0x123#12 true 4#4 := by decide +kernel

/-- One word of every instruction of the family, its fields written out from the opcode table. -/
theorem test_decode_arm_transfers :
    decodeArm 0b1110_0101_1_0_0_0_0001_0010_101001010011#32 = .armStrImmPre .al true false 1#4 2#4 0xA53#12 ∧
    decodeArm 0b1110_0100_1_000_0001_0010_101001010011#32 = .armStrImmPost .al true 1#4 2#4 0xA53#12 ∧
    decodeArm 0b1110_0100_1_010_0001_0010_101001010011#32 = .armStrtImm .al true 1#4 2#4 0xA53#12 ∧
    decodeArm 0b1110_0111_1_0_0_0_0001_0010_10011_10_0_0100#32 = .armStrRegPre .al true false 1#4 2#4 0x13#5 .asr 4#4 ∧
    decodeArm 0b1110_0110_1_000_0001_0010_10011_10_0_0100#32 = .armStrRegPost .al true 1#4 2#4 0x13#5 .asr 4#4 ∧
    decodeArm 0b1110_0110_1_010_0001_0010_10011_10_0_0100#32 = .armStrtReg .al true 1#4 2#4 0x13#5 .asr 4#4 ∧
    decodeArm 0b1110_0101_1_0_0_1_0001_0010_101001010011#32 = .armLdrImmPre .al true false 1#4 2#4 0xA53#12 ∧
    decodeArm 0b1110_0100_1_001_0001_0010_101001010011#32 = .armLdrImmPost .al true 1#4 2#4 0xA53#12 ∧
    decodeArm 0b1110_0100_1_011_0001_0010_101001010011#32 = .armLdrtImm .al true 1#4 2#4 0xA53#12 ∧
    decodeArm 0b1110_0111_1_0_0_1_0001_0010_10011_10_0_0100#32 = .armLdrRegPre .al true false 1#4 2#4 0x13#5 .asr 4#4 ∧
    decodeArm 0b1110_0110_1_001_0001_0010_10011_10_0_0100#32 = .armLdrRegPost .al true 1#4 2#4 0x13#5 .asr 4#4 ∧
    decodeArm 0b1110_0110_1_011_0001_0010_10011_10_0_0100#32 = .armLdrtReg .al true 1#4 2#4 0x13#5 .asr 4#4 ∧
    decodeArm 0b1110_0101_1_1_0_0_0001_0010_101001010011#32 = .armStrbImmPre .al true false 1#4 2#4 0xA53#12 ∧
    decodeArm 0b1110_0100_1_100_0001_0010_101001010011#32 = .armStrbImmPost .al true 1#4 2#4 0xA53#12 ∧
    decodeArm 0b1110_0100_1_110_0001_0010_101001010011#32 = .armStrbtImm .al true 1#4 2#4 0xA53#12 ∧
    decodeArm 0b1110_0111_1_1_0_0_0001_0010_10011_10_0_0100#32 = .armStrbRegPre .al true false 1#4 2#4 0x13#5 .asr 4#4 ∧
    decodeArm 0b1110_0110_1_100_0001_0010_10011_10_0_0100#32 = .armStrbRegPost .al true 1#4 2#4 0x13#5 .asr 4#4 ∧
    decodeArm 0b1110_0110_1_110_0001_0010_10011_10_0_0100#32 = .armStrbtReg .al true 1#4 2#4 0x13#5 .asr 4#4 ∧
    decodeArm 0b1110_0101_1_1_0_1_0001_0010_101001010011#32 = .armLdrbImmPre .al true false 1#4 2#4 0xA53#12 ∧
    decodeArm 0b1110_0100_1_101_0001_0010_101001010011#32 = .armLdrbImmPost .al true 1#4 2#4 0xA53#12 ∧
    decodeArm 0b1110_0100_1_111_0001_0010_101001010011#32 = .armLdrbtImm .al true 1#4 2#4 0xA53#12 ∧
    decodeArm 0b1110_0111_1_1_0_1_0001_0010_10011_10_0_0100#32 = .armLdrbRegPre .al true false 1#4 2#4 0x13#5 .asr 4#4 ∧
    decodeArm 0b1110_0110_1_101_0001_0010_10011_10_0_0100#32 = .armLdrbRegPost .al true 1#4 2#4 0x13#5 .asr 4#4 ∧
    decodeArm 0b1110_0110_1_111_0001_0010_10011_10_0_0100#32 = .armLdrbtReg .al true 1#4 2#4 0x13#5 .asr 4#4 := by decide +kernel

/-- One word of every instruction of the family, its fields written out from the opcode table. -/
theorem test_decode_arm_block :
    decodeArm 0b1110_100_1_0_0_1_0_0001_1010010100000011#32 = .armStm .al true false true 1#4 0xA503#16 ∧
    decodeArm 0b1110_100_1_0_1_1_0_0001_1010010100000011#32 = .armStmUser .al true false true 1#4 0xA503#16 ∧
    decodeArm 0b1110_100_1_0_0_1_1_0001_1010010100000011#32 = .armLdm .al true false true 1#4 0xA503#16 ∧
    decodeArm 0b1110_100_1_0_1_1_1_0001_1010010100000011#32 = .armLdmUser .al true false true 1#4 0xA503#16 := by decide +kernel

/-- One word of every instruction of the family, its fields written out from the opcode table. -/
theorem test_decode_arm_branch_system :
    decodeArm 0b1110_1010_101000000000000001010011#32 = .armB .al 0xA00053#24 ∧
    decodeArm 0b1110_1011_101000000000000001010011#32 = .armBl .al 0xA00053#24 ∧
    decodeArm 0b1110_00010010_1111_1111_1111_0001_0100#32 = .armBx .al 0xFFF#12 4#4 ∧
    decodeArm 0b1110_1111_101000000000000001010011#32 = .armSwi .al 0xA00053#24 ∧
    decodeArm 0b1110_011_10100101000000000101_1_1001#32 = .armUndefA14 .al 0xA5005#20 9#4 ∧
    decodeArm 0b1110_000_0_0_1_0_1_101001010011_1001_0100#32 = .armUndefMulspace .al 5#5 0xA53#12 4#4 ∧
    decodeArm 0b1110_00_1_10_00_0_10100101000000000101#32 = .armUndefMisc .al true 0#2 0xA5005#20 ∧
    decodeArm 0b1110_110_1_0_1_0_1_0001_1001_1001_10100101#32 = .armLdc .al true false true false 1#4 9#4 9#4 0xA5#8 ∧
    decodeArm 0b1110_110_1_0_1_0_0_0001_1001_1001_10100101#32 = .armStc .al true false true false 1#4 9#4 9#4 0xA5#8 ∧
    decodeArm 0b1110_1110_1001_1010_1001_1001_101_0_1011#32 = .armCdp .al 9#4 10#4 9#4 9#4 5#3 11#4 ∧
    decodeArm 0b1110_1110_101_0_1010_0010_1001_101_1_1011#32 = .armMcr .al 5#3 10#4 2#4 9#4 5#3 11#4 ∧
    decodeArm 0b1110_1110_101_1_1010_0010_1001_101_1_1011#32 = .armMrc .al 5#3 10#4 2#4 9#4 5#3 11#4 := by decide +kernel

/-- One word of every instruction of the family, its fields written out from the opcode table. -/
theorem test_decode_thumb_arithmetic :
    decodeThumb 0b00000_10011_011_010#16 = .thumbLslImm 0x13#5 3#3 2#3 ∧
    decodeThumb 0b00001_10011_011_010#16 = .thumbLsrImm 0x13#5 3#3 2#3 ∧
    decodeThumb 0b00010_10011_011_010#16 = .thumbAsrImm 0x13#5 3#3 2#3 ∧
    decodeThumb 0b0001100_001_011_010#16 = .thumbAddReg 1#3 3#3 2#3 ∧
    decodeThumb 0b0001101_001_011_010#16 = .thumbSubReg 1#3 3#3 2#3 ∧
    decodeThumb 0b0001110_101_011_010#16 = .thumbAddImm3 5#3 3#3 2#3 ∧
    decodeThumb 0b0001111_101_011_010#16 = .thumbSubImm3 5#3 3#3 2#3 ∧
    decodeThumb 0b00100_010_10100101#16 = .thumbMovImm 2#3 0xA5#8 ∧
    decodeThumb 0b00101_010_10100101#16 = .thumbCmpImm 2#3 0xA5#8 ∧
    decodeThumb 0b00110_010_10100101#16 = .thumbAddImm8 2#3 0xA5#8 ∧
    decodeThumb 0b00111_010_10100101#16 = .thumbSubImm8 2#3 0xA5#8 ∧
    decodeThumb 0b0100000000_011_010#16 = .thumbAnd 3#3 2#3 ∧
    decodeThumb 0b0100000001_011_010#16 = .thumbEor 3#3 2#3 ∧
    decodeThumb 0b0100000010_011_010#16 = .thumbLslReg 3#3 2#3 ∧
    decodeThumb 0b0100000011_011_010#16 = .thumbLsrReg 3#3 2#3 ∧
    decodeThumb 0b0100000100_011_010#16 = .thumbAsrReg 3#3 2#3 ∧
    decodeThumb 0b0100000101_011_010#16 = .thumbAdc 3#3 2#3 ∧
    decodeThumb 0b0100000110_011_010#16 = .thumbSbc 3#3 2#3 ∧
    decodeThumb 0b0100000111_011_010#16 = .thumbRorReg 3#3 2#3 ∧
    decodeThumb 0b0100001000_011_010#16 = .thumbTst 3#3 2#3 ∧
    decodeThumb 0b0100001001_011_010#16 = .thumbNeg 3#3 2#3 ∧
    decodeThumb 0b0100001010_011_010#16 = .thumbCmpReg 3#3 2#3 ∧
    decodeThumb 0b0100001011_011_010#16 = .thumbCmn 3#3 2#3 ∧
    decodeThumb 0b0100001100_011_010#16 = .thumbOrr 3#3 2#3 ∧
    decodeThumb 0b0100001101_011_010#16 = .thumbMul 3#3 2#3 ∧
    decodeThumb 0b0100001110_011_010#16 = .thumbBic 3#3 2#3 ∧
    decodeThumb 0b0100001111_011_010#16 = .thumbMvn 3#3 2#3 := by decide +kernel

/-- One word of every instruction of the family, its fields written out from the opcode table. -/
theorem test_decode_thumb_high_registers :
    decodeThumb 0b010001_00_1_0_011_101#16 = .thumbAddHi 3#4 13#4 ∧
    decodeThumb 0b010001_01_0_1_011_101#16 = .thumbCmpHi 11#4 5#4 ∧
    decodeThumb 0b010001_10_1_1_011_101#16 = .thumbMovHi 11#4 13#4 ∧
    decodeThumb 0b010001_11_0_1_110_000#16 = .thumbBx false 14#4 0#3 := by decide +kernel

/-- One word of every instruction of the family, its fields written out from the opcode table. -/
theorem test_decode_thumb_transfers :
    decodeThumb 0b01001_010_10100101#16 = .thumbLdrPc 2#3 0xA5#8 ∧
    decodeThumb 0b0101000_111_110_010#16 = .thumbStrReg 7#3 6#3 2#3 ∧
    decodeThumb 0b0101001_111_110_010#16 = .thumbStrhReg 7#3 6#3 2#3 ∧
    decodeThumb 0b0101010_111_110_010#16 = .thumbStrbReg 7#3 6#3 2#3 ∧
    decodeThumb 0b0101011_111_110_010#16 = .thumbLdsbReg 7#3 6#3 2#3 ∧
    decodeThumb 0b0101100_111_110_010#16 = .thumbLdrReg 7#3 6#3 2#3 ∧
    decodeThumb 0b0101101_111_110_010#16 = .thumbLdrhReg 7#3 6#3 2#3 ∧
    decodeThumb 0b0101110_111_110_010#16 = .thumbLdrbReg 7#3 6#3 2#3 ∧
    decodeThumb 0b0101111_111_110_010#16 = .thumbLdshReg 7#3 6#3 2#3 ∧
    decodeThumb 0b01100_10011_110_010#16 = .thumbStrImm 0x13#5 6#3 2#3 ∧
    decodeThumb 0b01101_10011_110_010#16 = .thumbLdrImm 0x13#5 6#3 2#3 ∧
    decodeThumb 0b01110_10011_110_010#16 = .thumbStrbImm 0x13#5 6#3 2#3 ∧
    decodeThumb 0b01111_10011_110_010#16 = .thumbLdrbImm 0x13#5 6#3 2#3 ∧
    decodeThumb 0b10000_10011_110_010#16 = .thumbStrhImm 0x13#5 6#3 2#3 ∧
    decodeThumb 0b10001_10011_110_010#16 = .thumbLdrhImm 0x13#5 6#3 2#3 ∧
    decodeThumb 0b10010_010_10100101#16 = .thumbStrSp 2#3 0xA5#8 ∧
    decodeThumb 0b10011_010_10100101#16 = .thumbLdrSp 2#3 0xA5#8 := by decide +kernel

/-- One word of every instruction of the family, its fields written out from the opcode table. -/
theorem test_decode_thumb_stack :
    decodeThumb 0b10100_010_10100101#16 = .thumbAddPc 2#3 0xA5#8 ∧
    decodeThumb 0b10101_010_10100101#16 = .thumbAddSp 2#3 0xA5#8 ∧
    decodeThumb 0b101100000_1010101#16 = .thumbAddSpImm 0x55#7 ∧
    decodeThumb 0b101100001_1010101#16 = .thumbSubSpImm 0x55#7 ∧
    decodeThumb 0b10110100_10100101#16 = .thumbPush 0xA5#8 ∧
    decodeThumb 0b10110101_10100101#16 = .thumbPushLr 0xA5#8 ∧
    decodeThumb 0b10111100_10100101#16 = .thumbPop 0xA5#8 ∧
    decodeThumb 0b10111101_10100101#16 = .thumbPopPc 0xA5#8 ∧
    decodeThumb 0b11000_110_10100101#16 = .thumbStmia 6#3 0xA5#8 ∧
    decodeThumb 0b11001_110_10100101#16 = .thumbLdmia 6#3 0xA5#8 := by decide +kernel

/-- One word of every instruction of the family, its fields written out from the opcode table. -/
theorem test_decode_thumb_branches :
    decodeThumb 0b1101_0000_10100101#16 = .thumbBeq 0xA5#8 ∧
    decodeThumb 0b1101_0001_10100101#16 = .thumbBne 0xA5#8 ∧
    decodeThumb 0b1101_0010_10100101#16 = .thumbBcs 0xA5#8 ∧
    decodeThumb 0b1101_0011_10100101#16 = .thumbBcc 0xA5#8 ∧
    decodeThumb 0b1101_0100_10100101#16 = .thumbBmi 0xA5#8 ∧
    decodeThumb 0b1101_0101_10100101#16 = .thumbBpl 0xA5#8 ∧
    decodeThumb 0b1101_0110_10100101#16 = .thumbBvs 0xA5#8 ∧
    decodeThumb 0b1101_0111_10100101#16 = .thumbBvc 0xA5#8 ∧
    decodeThumb 0b1101_1000_10100101#16 = .thumbBhi 0xA5#8 ∧
    decodeThumb 0b1101_1001_10100101#16 = .thumbBls 0xA5#8 ∧
    decodeThumb 0b1101_1010_10100101#16 = .thumbBge 0xA5#8 ∧
    decodeThumb 0b1101_1011_10100101#16 = .thumbBlt 0xA5#8 ∧
    decodeThumb 0b1101_1100_10100101#16 = .thumbBgt 0xA5#8 ∧
    decodeThumb 0b1101_1101_10100101#16 = .thumbBle 0xA5#8 ∧
    decodeThumb 0b1101_1110_10100101#16 = .thumbUndefCond 0xA5#8 ∧
    decodeThumb 0b11011111_10100101#16 = .thumbSwi 0xA5#8 ∧
    decodeThumb 0b11100_10110100011#16 = .thumbB 0x5A3#11 ∧
    decodeThumb 0b11101_10110100011#16 = .thumbUndefLong 0x5A3#11 ∧
    decodeThumb 0b11110_10110100011#16 = .thumbBlHi 0x5A3#11 ∧
    decodeThumb 0b11111_10110100011#16 = .thumbBlLo 0x5A3#11 ∧
    decodeThumb 0b1011_0001_10100101#16 = .thumbUndefMisc 1#4 0xA5#8 := by decide +kernel

/-! ### The worked vectors of the spec (95_test_vectors), one step each -/


/-- CPSR from its word. -/
def statusOf (w : Word) : Cpsr := Cpsr.ofWord w ((Mode.ofBits? (w.extractLsb' 0 5)).getD .sys)

/-- Registers written in a mode. -/
def withRegs (s : State) (l : List (RegNum × Word)) : State := l.foldl (fun s x => s.writeReg x.1 x.2) s

/-- Words listed in memory. -/
def withWords (s : State) (l : List (Word × Word)) : State :=
  { s with mem := l.foldl (fun m x => placeBytes m x.1 (bytesOfWord x.2)) s.mem }

/-- A small state: PC, CPSR, registers of its mode, words of memory. -/
def core (pc status : Word) (regs : List (RegNum × Word)) (words : List (Word × Word)) : State :=
  withWords (withRegs { State.reset with pc := pc, cpsr := statusOf status } regs) words

/-- The SPSR of the current mode set. -/
def saved (v : Word) (s : State) : State := { s with spsrs := s.spsrs.set s.cpsr.mode v }

/-- The granule of the I/O page at an offset set. -/
def granule (o : Nat) (v : Half) (s : State) : State :=
  match ioRegAt o with
  | some r => s.setIoRaw r v
  | none => s

/-- One step with an instruction placed at the PC. -/
def run (nbits w : Nat) (s : State) : Host.Outcome State Fault Refusal :=
  step { (s.withFetchWord nbits w) with cpsr := s.cpsr }

/-- A test on the next state; false for a fault or a refusal. -/
def after (o : Host.Outcome State Fault Refusal) (p : State → Bool) : Bool :=
  match o with
  | .next t => p t
  | .fault _ => false
  | .refused _ => false

/-- A refusal of a reason. -/
def stops (o : Host.Outcome State Fault Refusal) (r : Refusal) : Bool :=
  match o with
  | .next _ => false
  | .fault _ => false
  | .refused q => q == r

/-- PC, CPSR, registers and bytes of a state. -/
def ends (t : State) (pc status : Word) (regs : List (RegNum × Word)) (bytes : List (Word × Byte)) : Bool :=
  t.pc == pc && t.cpsr.toWord == status && regs.all (fun x => t.armReg x.1 == x.2) &&
    bytes.all (fun x => t.readByte x.1 == x.2)

/-- 95_test_vectors DP1: ADDS r0, r1, r2. -/
theorem test_DP1_armAdd : after (run 32 0xE0910002 (core 0x08000000#32 0x0000005F#32 [(1#4, 0x7FFFFFFF#32), (2#4, 0x1#32)] [])) (fun t =>
    ends t 0x08000004#32 0x9000005F#32 [(0#4, 0x80000000#32)] []) = true := by decide +kernel

/-- 95_test_vectors DP6: RSBS r0, r1, #0. -/
theorem test_DP6_armRsb : after (run 32 0xE2710000 (core 0x08000000#32 0x0000005F#32 [(1#4, 0x1#32)] [])) (fun t =>
    ends t 0x08000004#32 0x8000005F#32 [(0#4, 0xFFFFFFFF#32)] []) = true := by decide +kernel

/-- 95_test_vectors DP7: ADCS r0, r1, r2. -/
theorem test_DP7_armAdc : after (run 32 0xE0B10002 (core 0x08000000#32 0x2000005F#32 [(1#4, 0x1#32), (2#4, 0x1#32)] [])) (fun t =>
    ends t 0x08000004#32 0x0000005F#32 [(0#4, 0x3#32)] []) = true := by decide +kernel

/-- 95_test_vectors DP8: SBCS r0, r1, r2. -/
theorem test_DP8_armSbc : after (run 32 0xE0D10002 (core 0x08000000#32 0x0000005F#32 [(1#4, 0x5#32), (2#4, 0x3#32)] [])) (fun t =>
    ends t 0x08000004#32 0x2000005F#32 [(0#4, 0x1#32)] []) = true := by decide +kernel

/-- 95_test_vectors DP9: RSCS r0, r1, r2. -/
theorem test_DP9_armRsc : after (run 32 0xE0F10002 (core 0x08000000#32 0x2000005F#32 [(1#4, 0x3#32), (2#4, 0x5#32)] [])) (fun t =>
    ends t 0x08000004#32 0x2000005F#32 [(0#4, 0x2#32)] []) = true := by decide +kernel

/-- 95_test_vectors DP11: ANDS r0, r1, r2, LSL #1. -/
theorem test_DP11_armAnd : after (run 32 0xE0110082 (core 0x08000000#32 0x0000005F#32 [(1#4, 0xFFFFFFFF#32), (2#4, 0x80000001#32)] [])) (fun t =>
    ends t 0x08000004#32 0x2000005F#32 [(0#4, 0x2#32)] []) = true := by decide +kernel

/-- 95_test_vectors DP12: EORS r0, r1, r2. -/
theorem test_DP12_armEor : after (run 32 0xE0310002 (core 0x08000000#32 0x1000005F#32 [(1#4, 0xF0F0F0F0#32), (2#4, 0xF0F0F0F0#32)] [])) (fun t =>
    ends t 0x08000004#32 0x5000005F#32 [(0#4, 0x0#32)] []) = true := by decide +kernel

/-- 95_test_vectors DP13: ORR r0, r1, r2. -/
theorem test_DP13_armOrr : after (run 32 0xE1810002 (core 0x08000000#32 0x0000005F#32 [(1#4, 0xF#32), (2#4, 0xF0#32)] [])) (fun t =>
    ends t 0x08000004#32 0x0000005F#32 [(0#4, 0xFF#32)] []) = true := by decide +kernel

/-- 95_test_vectors DP14: BICS r0, r1, #0xFF. -/
theorem test_DP14_armBic : after (run 32 0xE3D100FF (core 0x08000000#32 0x0000005F#32 [(1#4, 0x800000FF#32)] [])) (fun t =>
    ends t 0x08000004#32 0x8000005F#32 [(0#4, 0x80000000#32)] []) = true := by decide +kernel

/-- 95_test_vectors DP17: MVNS r0, #0. -/
theorem test_DP17_armMvn : after (run 32 0xE3F00000 (core 0x08000000#32 0x0000005F#32 [] [])) (fun t =>
    ends t 0x08000004#32 0x8000005F#32 [(0#4, 0xFFFFFFFF#32)] []) = true := by decide +kernel

/-- 95_test_vectors DP18: TST r1, #1. -/
theorem test_DP18_armTst : after (run 32 0xE3110001 (core 0x08000000#32 0x0000005F#32 [(1#4, 0x2#32)] [])) (fun t =>
    ends t 0x08000004#32 0x4000005F#32 [] []) = true := by decide +kernel

/-- 95_test_vectors DP19: TEQ r1, r1. -/
theorem test_DP19_armTeq : after (run 32 0xE1310001 (core 0x08000000#32 0x8000005F#32 [(1#4, 0x12345678#32)] [])) (fun t =>
    ends t 0x08000004#32 0x4000005F#32 [] []) = true := by decide +kernel

/-- 95_test_vectors DP21: CMN r1, #1. -/
theorem test_DP21_armCmn : after (run 32 0xE3710001 (core 0x08000000#32 0x0000005F#32 [(1#4, 0xFFFFFFFF#32)] [])) (fun t =>
    ends t 0x08000004#32 0x6000005F#32 [] []) = true := by decide +kernel

/-- 95_test_vectors DP22: CMP r1, #0. -/
theorem test_DP22_armCmp : after (run 32 0xE3510000 (core 0x08000000#32 0x0000005F#32 [(1#4, 0x80000000#32)] [])) (fun t =>
    ends t 0x08000004#32 0xA000005F#32 [] []) = true := by decide +kernel

/-- 95_test_vectors DP24: ADD r0, pc, r1, LSL r2. -/
theorem test_DP24_armAdd : after (run 32 0xE08F0211 (core 0x08000000#32 0x0000005F#32 [(1#4, 0x1#32), (2#4, 0x2#32)] [])) (fun t =>
    ends t 0x08000004#32 0x0000005F#32 [(0#4, 0x8000010#32)] []) = true := by decide +kernel

/-- 95_test_vectors DP32: MOV pc, r0. -/
theorem test_DP32_armMov :
    stops (run 32 0xE1A0F000 (core 0x08000000#32 0x0000005F#32 [(0#4, 0x8000102#32)] [])) .unalignedArmPcWrite = true := by decide +kernel

/-- 95_test_vectors DP33: MOVS pc, lr. -/
theorem test_DP33_armMov : after (run 32 0xE1B0F00E (saved 0x00000030#32 (core 0x08000000#32 0x000000D3#32 [(14#4, 0x8000201#32)] []))) (fun t =>
    ends t 0x08000200#32 0x00000070#32 [] []) = true := by decide +kernel

/-- 95_test_vectors DP35: SUBS pc, lr, #4. -/
theorem test_DP35_armSub : after (run 32 0xE25EF004 (saved 0x6000001F#32 (core 0x08000000#32 0x000000D2#32 [(14#4, 0x8000204#32)] []))) (fun t =>
    ends t 0x08000200#32 0x6000005F#32 [] []) = true := by decide +kernel

/-- 95_test_vectors P2: MRS r0, SPSR. -/
theorem test_P2_armMrs : after (run 32 0xE14F0000 (saved 0x20000030#32 (core 0x08000000#32 0x000000D2#32 [] []))) (fun t =>
    ends t 0x08000004#32 0x000000D2#32 [(0#4, 0x20000030#32)] []) = true := by decide +kernel

/-- 95_test_vectors P6: MSR CPSR_c, #0xDF. -/
theorem test_P6_armMsrImm : after (run 32 0xE321F0DF (core 0x08000000#32 0x00000050#32 [] [])) (fun t =>
    ends t 0x08000004#32 0x00000050#32 [] []) = true := by decide +kernel

/-- 95_test_vectors P7: MSR CPSR_c, #0x1F. -/
theorem test_P7_armMsrImm : after (run 32 0xE321F01F (core 0x08000000#32 0x000000DF#32 [] [])) (fun t =>
    ends t 0x08000004#32 0x0000005F#32 [] []) = true := by decide +kernel

/-- 95_test_vectors P10: MSR SPSR_fc, r0. -/
theorem test_P10_armMsrReg : after (run 32 0xE169F000 (saved 0x00000010#32 (core 0x08000000#32 0x000000D3#32 [(0#4, 0xF00000D0#32)] []))) (fun t =>
    ends t 0x08000004#32 0x000000D3#32 [] [] && t.spsrs.get? t.cpsr.mode == some 0xF00000D0#32) = true := by decide +kernel

/-- 95_test_vectors P11: MSR CPSR_fc, r1. -/
theorem test_P11_armMsrReg : after (run 32 0xE129F001 (core 0x08000000#32 0x000000D3#32 [(1#4, 0x6000001F#32)] [])) (fun t =>
    ends t 0x08000004#32 0x6000005F#32 [] []) = true := by decide +kernel

/-- 95_test_vectors M1: MUL r0, r1, r2. -/
theorem test_M1_armMul : after (run 32 0xE0000291 (core 0x08000000#32 0x0000005F#32 [(1#4, 0x6#32), (2#4, 0x7#32)] [])) (fun t =>
    ends t 0x08000004#32 0x0000005F#32 [(0#4, 0x2A#32)] []) = true := by decide +kernel

/-- 95_test_vectors M4: MLA r0, r1, r2, r3. -/
theorem test_M4_armMla : after (run 32 0xE0203291 (core 0x08000000#32 0x0000005F#32 [(1#4, 0x3#32), (2#4, 0x4#32), (3#4, 0x5#32)] [])) (fun t =>
    ends t 0x08000004#32 0x0000005F#32 [(0#4, 0x11#32)] []) = true := by decide +kernel

/-- 95_test_vectors M5: UMULL r0, r1, r2, r3. -/
theorem test_M5_armUmull : after (run 32 0xE0810392 (core 0x08000000#32 0x0000005F#32 [(2#4, 0xFFFFFFFF#32), (3#4, 0xFFFFFFFF#32)] [])) (fun t =>
    ends t 0x08000004#32 0x0000005F#32 [(0#4, 0x1#32), (1#4, 0xFFFFFFFE#32)] []) = true := by decide +kernel

/-- 95_test_vectors M6: SMULL r0, r1, r2, r3. -/
theorem test_M6_armSmull : after (run 32 0xE0C10392 (core 0x08000000#32 0x0000005F#32 [(2#4, 0xFFFFFFFF#32), (3#4, 0xFFFFFFFF#32)] [])) (fun t =>
    ends t 0x08000004#32 0x0000005F#32 [(0#4, 0x1#32), (1#4, 0x0#32)] []) = true := by decide +kernel

/-- 95_test_vectors M8: UMLAL r0, r1, r2, r3. -/
theorem test_M8_armUmlal : after (run 32 0xE0A10392 (core 0x08000000#32 0x0000005F#32 [(0#4, 0xFFFFFFFF#32), (1#4, 0x0#32), (2#4, 0x1#32), (3#4, 0x1#32)] [])) (fun t =>
    ends t 0x08000004#32 0x0000005F#32 [(0#4, 0x0#32), (1#4, 0x1#32)] []) = true := by decide +kernel

/-- 95_test_vectors M9: SMLAL r0, r1, r2, r3. -/
theorem test_M9_armSmlal : after (run 32 0xE0E10392 (core 0x08000000#32 0x0000005F#32 [(0#4, 0x5#32), (1#4, 0x0#32), (2#4, 0xFFFFFFFF#32), (3#4, 0x2#32)] [])) (fun t =>
    ends t 0x08000004#32 0x0000005F#32 [(0#4, 0x3#32)] []) = true := by decide +kernel

/-- 95_test_vectors W2: SWPB r0, r1, [r2]. -/
theorem test_W2_armSwpb : after (run 32 0xE1420091 (core 0x08000000#32 0x0000005F#32 [(1#4, 0xAB#32), (2#4, 0x3000001#32)] [(0x03000000#32, 0x11223344#32)])) (fun t =>
    ends t 0x08000004#32 0x0000005F#32 [(0#4, 0x33#32)] [(0x03000001#32, 0xAB#8)]) = true := by decide +kernel

/-- 95_test_vectors W3: SWP r0, r0, [r2]. -/
theorem test_W3_armSwp : after (run 32 0xE1020090 (core 0x08000000#32 0x0000005F#32 [(0#4, 0x22222222#32), (2#4, 0x3000002#32)] [(0x03000000#32, 0x11223344#32)])) (fun t =>
    ends t 0x08000004#32 0x0000005F#32 [(0#4, 0x33441122#32)] [(0x03000000#32, 0x22#8), (0x03000001#32, 0x22#8), (0x03000002#32, 0x22#8), (0x03000003#32, 0x22#8)]) = true := by decide +kernel

/-- 95_test_vectors L2: LDR r0, [r1, #4]. -/
theorem test_L2_armLdrImmPre : after (run 32 0xE5910004 (core 0x08000000#32 0x0000005F#32 [(1#4, 0x3000001#32)] [(0x03000004#32, 0xCAFEBABE#32)])) (fun t =>
    ends t 0x08000004#32 0x0000005F#32 [(0#4, 0xBECAFEBA#32)] []) = true := by decide +kernel

/-- 95_test_vectors L3: LDR r0, [r1], #4. -/
theorem test_L3_armLdrImmPost : after (run 32 0xE4910004 (core 0x08000000#32 0x0000005F#32 [(1#4, 0x3000000#32)] [(0x03000000#32, 0x12345678#32)])) (fun t =>
    ends t 0x08000004#32 0x0000005F#32 [(1#4, 0x3000004#32), (0#4, 0x12345678#32)] []) = true := by decide +kernel

/-- 95_test_vectors L5: LDR r0, [r1, r2, LSL #2]. -/
theorem test_L5_armLdrRegPre : after (run 32 0xE7910102 (core 0x08000000#32 0x0000005F#32 [(1#4, 0x3000000#32), (2#4, 0x3#32)] [(0x0300000C#32, 0xA5A5A5A5#32)])) (fun t =>
    ends t 0x08000004#32 0x0000005F#32 [(0#4, 0xA5A5A5A5#32)] []) = true := by decide +kernel

/-- 95_test_vectors L7: STR pc, [r1]. -/
theorem test_L7_armStrImmPre : after (run 32 0xE581F000 (core 0x08000000#32 0x0000005F#32 [(1#4, 0x3000000#32)] [])) (fun t =>
    ends t 0x08000004#32 0x0000005F#32 [] [(0x03000000#32, 0x0C#8), (0x03000001#32, 0x00#8), (0x03000002#32, 0x00#8), (0x03000003#32, 0x08#8)]) = true := by decide +kernel

/-- 95_test_vectors L8: LDRB r0, [r1, #3]. -/
theorem test_L8_armLdrbImmPre : after (run 32 0xE5D10003 (core 0x08000000#32 0x0000005F#32 [(1#4, 0x3000000#32)] [(0x03000000#32, 0x80FF1234#32)])) (fun t =>
    ends t 0x08000004#32 0x0000005F#32 [(0#4, 0x80#32)] []) = true := by decide +kernel

/-- 95_test_vectors L10: LDR pc, [r1]. -/
theorem test_L10_armLdrImmPre : after (run 32 0xE591F000 (core 0x08000000#32 0x0000005F#32 [(1#4, 0x3000000#32)] [(0x03000000#32, 0x8000103#32)])) (fun t =>
    ends t 0x08000100#32 0x0000005F#32 [] []) = true := by decide +kernel

/-- 95_test_vectors L12: LDRH r0, [r1, #2]. -/
theorem test_L12_armLdrhImm : after (run 32 0xE1D100B2 (core 0x08000000#32 0x0000005F#32 [(1#4, 0x3000000#32)] [(0x03000000#32, 0xCAFEBABE#32)])) (fun t =>
    ends t 0x08000004#32 0x0000005F#32 [(0#4, 0xCAFE#32)] []) = true := by decide +kernel

/-- 95_test_vectors L13: STRH r0, [r1, #2]. -/
theorem test_L13_armStrhImm : after (run 32 0xE1C100B2 (core 0x08000000#32 0x0000005F#32 [(0#4, 0x7FFF#32), (1#4, 0x5000000#32)] [])) (fun t =>
    ends t 0x08000004#32 0x0000005F#32 [] [(0x05000002#32, 0xFF#8), (0x05000003#32, 0x7F#8)]) = true := by decide +kernel

/-- 95_test_vectors L14: LDRSB r0, [r1, #0]. -/
theorem test_L14_armLdrsbImm : after (run 32 0xE1D100D0 (core 0x08000000#32 0x0000005F#32 [(1#4, 0x3000000#32)] [(0x03000000#32, 0x80#32)])) (fun t =>
    ends t 0x08000004#32 0x0000005F#32 [(0#4, 0xFFFFFF80#32)] []) = true := by decide +kernel

/-- 95_test_vectors L15: LDRSH r0, [r1, #-2]!. -/
theorem test_L15_armLdrshImm : after (run 32 0xE17100F2 (core 0x08000000#32 0x0000005F#32 [(1#4, 0x3000002#32)] [(0x03000000#32, 0x8001#32)])) (fun t =>
    ends t 0x08000004#32 0x0000005F#32 [(1#4, 0x3000000#32), (0#4, 0xFFFF8001#32)] []) = true := by decide +kernel

/-- 95_test_vectors L16: LDRH r0, [r1, #1]. -/
theorem test_L16_armLdrhImm :
    stops (run 32 0xE1D100B1 (core 0x08000000#32 0x0000005F#32 [(1#4, 0x3000000#32)] [])) .unalignedHalfword = true := by decide +kernel

/-- 95_test_vectors L17: STRB r0, [r1]. -/
theorem test_L17_armStrbImmPre : after (run 32 0xE5C10000 (core 0x08000000#32 0x0000005F#32 [(0#4, 0x1F#32), (1#4, 0x5000003#32)] [])) (fun t =>
    ends t 0x08000004#32 0x0000005F#32 [] [(0x05000002#32, 0x1F#8), (0x05000003#32, 0x1F#8)]) = true := by decide +kernel

/-- 95_test_vectors L18: STRB r0, [r1]. -/
theorem test_L18_armStrbImmPre : after (run 32 0xE5C10000 (core 0x08000000#32 0x0000005F#32 [(0#4, 0x1F#32), (1#4, 0x7000000#32)] [])) (fun t =>
    ends t 0x08000004#32 0x0000005F#32 [] [] && (Memory.get? t.mem 0x07000000).isNone) = true := by decide +kernel

/-- 95_test_vectors L19: STRH r0, [r1, #2]. -/
theorem test_L19_armStrhImm : after (run 32 0xE1C100B2 (granule 0x202 0x7#16 (core 0x08000000#32 0x0000005F#32 [(0#4, 0x5#32), (1#4, 0x4000200#32)] []))) (fun t =>
    ends t 0x08000004#32 0x0000005F#32 [] [] && (t.memRead .half 0x04000202#32 == 0x2#32)) = true := by decide +kernel

/-- 95_test_vectors B1: STMDB sp!, {r0-r2, lr}. -/
theorem test_B1_armStm : after (run 32 0xE92D4007 (core 0x08000000#32 0x0000005F#32 [(0#4, 0x1#32), (1#4, 0x2#32), (2#4, 0x3#32), (13#4, 0x3007F00#32), (14#4, 0x8000123#32)] [])) (fun t =>
    ends t 0x08000004#32 0x0000005F#32 [(13#4, 0x3007EF0#32)] [(0x03007EF0#32, 0x01#8), (0x03007EF1#32, 0x00#8), (0x03007EF2#32, 0x00#8), (0x03007EF3#32, 0x00#8), (0x03007EF4#32, 0x02#8), (0x03007EF5#32, 0x00#8), (0x03007EF6#32, 0x00#8), (0x03007EF7#32, 0x00#8), (0x03007EF8#32, 0x03#8), (0x03007EF9#32, 0x00#8), (0x03007EFA#32, 0x00#8), (0x03007EFB#32, 0x00#8), (0x03007EFC#32, 0x23#8), (0x03007EFD#32, 0x01#8), (0x03007EFE#32, 0x00#8), (0x03007EFF#32, 0x08#8)]) = true := by decide +kernel

/-- 95_test_vectors B2: LDMIA sp!, {r0-r2, pc}. -/
theorem test_B2_armLdm : after (run 32 0xE8BD8007 (core 0x08000000#32 0x0000005F#32 [(13#4, 0x3007EF0#32)] [(0x03007EF0#32, 0x1#32), (0x03007EF4#32, 0x2#32), (0x03007EF8#32, 0x3#32), (0x03007EFC#32, 0x8000123#32)])) (fun t =>
    ends t 0x08000120#32 0x0000005F#32 [(13#4, 0x3007F00#32), (0#4, 0x1#32), (1#4, 0x2#32), (2#4, 0x3#32)] []) = true := by decide +kernel

/-- 95_test_vectors B4: LDMDA r0!, {r1, r2}. -/
theorem test_B4_armLdm : after (run 32 0xE8300006 (core 0x08000000#32 0x0000005F#32 [(0#4, 0x3000008#32)] [(0x03000004#32, 0xA#32), (0x03000008#32, 0xB#32)])) (fun t =>
    ends t 0x08000004#32 0x0000005F#32 [(0#4, 0x3000000#32), (1#4, 0xA#32), (2#4, 0xB#32)] []) = true := by decide +kernel

/-- 95_test_vectors B5: STMIA r0!, {r0, r1}. -/
theorem test_B5_armStm : after (run 32 0xE8A00003 (core 0x08000000#32 0x0000005F#32 [(0#4, 0x3000000#32), (1#4, 0x7#32)] [])) (fun t =>
    ends t 0x08000004#32 0x0000005F#32 [(0#4, 0x3000008#32)] [(0x03000000#32, 0x00#8), (0x03000001#32, 0x00#8), (0x03000002#32, 0x00#8), (0x03000003#32, 0x03#8), (0x03000004#32, 0x07#8), (0x03000005#32, 0x00#8), (0x03000006#32, 0x00#8), (0x03000007#32, 0x00#8)]) = true := by decide +kernel

/-- 95_test_vectors J2: B 0x07FFFFF8. -/
theorem test_J2_armB : after (run 32 0xEAFFFFFC (core 0x08000000#32 0x0000005F#32 [] [])) (fun t =>
    ends t 0x07FFFFF8#32 0x0000005F#32 [] []) = true := by decide +kernel

/-- 95_test_vectors J4: BL 0x08000100. -/
theorem test_J4_armBl : after (run 32 0xEB00003E (core 0x08000000#32 0x0000005F#32 [] [])) (fun t =>
    ends t 0x08000100#32 0x0000005F#32 [(14#4, 0x8000004#32)] []) = true := by decide +kernel

/-- 95_test_vectors J6: BX r0. -/
theorem test_J6_armBx : after (run 32 0xE12FFF10 (core 0x08000000#32 0x0000005F#32 [(0#4, 0x8000101#32)] [])) (fun t =>
    ends t 0x08000100#32 0x0000007F#32 [] []) = true := by decide +kernel

/-- 95_test_vectors J8: BX r0. -/
theorem test_J8_armBx :
    stops (run 32 0xE12FFF10 (core 0x08000000#32 0x0000005F#32 [(0#4, 0x8000202#32)] [])) .unalignedArmPcWrite = true := by decide +kernel

/-- 95_test_vectors E1: SWI 0x05. -/
theorem test_E1_armSwi : after (run 32 0xEF000005 (core 0x08000200#32 0x60000050#32 [] [])) (fun t =>
    ends t 0x00000008#32 0x600000D3#32 [(14#4, 0x8000204#32)] [] && t.spsrs.get? t.cpsr.mode == some 0x60000050#32) = true := by decide +kernel

/-- 95_test_vectors E2: (Undefined) 0xE7F000F0. -/
theorem test_E2_armUndefA14 : after (run 32 0xE7F000F0 (core 0x08000000#32 0x0000005F#32 [] [])) (fun t =>
    ends t 0x00000004#32 0x000000DB#32 [(14#4, 0x8000004#32)] [] && t.spsrs.get? t.cpsr.mode == some 0x0000005F#32) = true := by decide +kernel

/-- 95_test_vectors E3: CDP p1, 0, c0, c0, c0. -/
theorem test_E3_armCdp : after (run 32 0xEE000100 (core 0x08000000#32 0x00000050#32 [] [])) (fun t =>
    ends t 0x00000004#32 0x000000DB#32 [(14#4, 0x8000004#32)] [] && t.spsrs.get? t.cpsr.mode == some 0x00000050#32) = true := by decide +kernel

/-- 95_test_vectors E4: MCR p15, 0, r0, c1, c0. -/
theorem test_E4_armMcr : after (run 32 0xEE010F10 (core 0x08000000#32 0x0000005F#32 [(0#4, 0x0#32)] [])) (fun t =>
    ends t 0x00000004#32 0x000000DB#32 [(14#4, 0x8000004#32)] [] && t.spsrs.get? t.cpsr.mode == some 0x0000005F#32) = true := by decide +kernel

/-- 95_test_vectors E5: SWINE 0. -/
theorem test_E5_armSwi : after (run 32 0x1F000000 (core 0x08000000#32 0x4000005F#32 [] [])) (fun t =>
    ends t 0x08000004#32 0x4000005F#32 [] []) = true := by decide +kernel

/-- 95_test_vectors E12: (Thumb Undefined) 0xDE00. -/
theorem test_E12_thumbUndefCond : after (run 16 0xDE00 (core 0x08000000#32 0x0000007F#32 [] [])) (fun t =>
    ends t 0x00000004#32 0x000000DB#32 [(14#4, 0x8000002#32)] [] && t.spsrs.get? t.cpsr.mode == some 0x0000007F#32) = true := by decide +kernel

/-- 95_test_vectors T1: LSL r0, r1, #0. -/
theorem test_T1_thumbLslImm : after (run 16 0x0008 (core 0x08000000#32 0x0000007F#32 [(1#4, 0xDEADBEEF#32)] [])) (fun t =>
    ends t 0x08000002#32 0x8000007F#32 [(0#4, 0xDEADBEEF#32)] []) = true := by decide +kernel

/-- 95_test_vectors T3: LSR r0, r1, #0. -/
theorem test_T3_thumbLsrImm : after (run 16 0x0808 (core 0x08000000#32 0x0000007F#32 [(1#4, 0x80000000#32)] [])) (fun t =>
    ends t 0x08000002#32 0x6000007F#32 [(0#4, 0x0#32)] []) = true := by decide +kernel

/-- 95_test_vectors T4: ASR r0, r1, #1. -/
theorem test_T4_thumbAsrImm : after (run 16 0x1048 (core 0x08000000#32 0x0000007F#32 [(1#4, 0x80000001#32)] [])) (fun t =>
    ends t 0x08000002#32 0xA000007F#32 [(0#4, 0xC0000000#32)] []) = true := by decide +kernel

/-- 95_test_vectors T5: ADD r0, r1, r2. -/
theorem test_T5_thumbAddReg : after (run 16 0x1888 (core 0x08000000#32 0x0000007F#32 [(1#4, 0x7FFFFFFF#32), (2#4, 0x1#32)] [])) (fun t =>
    ends t 0x08000002#32 0x9000007F#32 [(0#4, 0x80000000#32)] []) = true := by decide +kernel

/-- 95_test_vectors T6: SUB r0, r1, #7. -/
theorem test_T6_thumbSubImm3 : after (run 16 0x1FC8 (core 0x08000000#32 0x0000007F#32 [(1#4, 0x7#32)] [])) (fun t =>
    ends t 0x08000002#32 0x6000007F#32 [(0#4, 0x0#32)] []) = true := by decide +kernel

/-- 95_test_vectors T7: MOV r0, #0xFF. -/
theorem test_T7_thumbMovImm : after (run 16 0x20FF (core 0x08000000#32 0x0000007F#32 [] [])) (fun t =>
    ends t 0x08000002#32 0x0000007F#32 [(0#4, 0xFF#32)] []) = true := by decide +kernel

/-- 95_test_vectors T8: CMP r0, #1. -/
theorem test_T8_thumbCmpImm : after (run 16 0x2801 (core 0x08000000#32 0x0000007F#32 [(0#4, 0x0#32)] [])) (fun t =>
    ends t 0x08000002#32 0x8000007F#32 [] []) = true := by decide +kernel

/-- 95_test_vectors T9: ADD r0, #200. -/
theorem test_T9_thumbAddImm8 : after (run 16 0x30C8 (core 0x08000000#32 0x0000007F#32 [(0#4, 0xFFFFFF38#32)] [])) (fun t =>
    ends t 0x08000002#32 0x6000007F#32 [(0#4, 0x0#32)] []) = true := by decide +kernel

/-- 95_test_vectors T10: SUB r0, #1. -/
theorem test_T10_thumbSubImm8 : after (run 16 0x3801 (core 0x08000000#32 0x0000007F#32 [(0#4, 0x0#32)] [])) (fun t =>
    ends t 0x08000002#32 0x8000007F#32 [(0#4, 0xFFFFFFFF#32)] []) = true := by decide +kernel

/-- 95_test_vectors T11: AND r0, r1. -/
theorem test_T11_thumbAnd : after (run 16 0x4008 (core 0x08000000#32 0x0000007F#32 [(0#4, 0xFF00FF00#32), (1#4, 0xFF00FF0#32)] [])) (fun t =>
    ends t 0x08000002#32 0x0000007F#32 [(0#4, 0xF000F00#32)] []) = true := by decide +kernel

/-- 95_test_vectors T12: EOR r0, r1. -/
theorem test_T12_thumbEor : after (run 16 0x4048 (core 0x08000000#32 0x0000007F#32 [(0#4, 0xFF00FF00#32), (1#4, 0xFF00FF0#32)] [])) (fun t =>
    ends t 0x08000002#32 0x8000007F#32 [(0#4, 0xF0F0F0F0#32)] []) = true := by decide +kernel

/-- 95_test_vectors T13: LSL r0, r1. -/
theorem test_T13_thumbLslReg : after (run 16 0x4088 (core 0x08000000#32 0x0000007F#32 [(0#4, 0x1#32), (1#4, 0x20#32)] [])) (fun t =>
    ends t 0x08000002#32 0x6000007F#32 [(0#4, 0x0#32)] []) = true := by decide +kernel

/-- 95_test_vectors T14: LSR r0, r1. -/
theorem test_T14_thumbLsrReg : after (run 16 0x40C8 (core 0x08000000#32 0x0000007F#32 [(0#4, 0x80000000#32), (1#4, 0x21#32)] [])) (fun t =>
    ends t 0x08000002#32 0x4000007F#32 [(0#4, 0x0#32)] []) = true := by decide +kernel

/-- 95_test_vectors T15: ASR r0, r1. -/
theorem test_T15_thumbAsrReg : after (run 16 0x4108 (core 0x08000000#32 0x0000007F#32 [(0#4, 0x80000000#32), (1#4, 0x28#32)] [])) (fun t =>
    ends t 0x08000002#32 0xA000007F#32 [(0#4, 0xFFFFFFFF#32)] []) = true := by decide +kernel

/-- 95_test_vectors T16: ADC r0, r1. -/
theorem test_T16_thumbAdc : after (run 16 0x4148 (core 0x08000000#32 0x2000007F#32 [(0#4, 0xFFFFFFFF#32), (1#4, 0x0#32)] [])) (fun t =>
    ends t 0x08000002#32 0x6000007F#32 [(0#4, 0x0#32)] []) = true := by decide +kernel

/-- 95_test_vectors T17: SBC r0, r1. -/
theorem test_T17_thumbSbc : after (run 16 0x4188 (core 0x08000000#32 0x2000007F#32 [(0#4, 0x5#32), (1#4, 0x3#32)] [])) (fun t =>
    ends t 0x08000002#32 0x2000007F#32 [(0#4, 0x2#32)] []) = true := by decide +kernel

/-- 95_test_vectors T18: ROR r0, r1. -/
theorem test_T18_thumbRorReg : after (run 16 0x41C8 (core 0x08000000#32 0x0000007F#32 [(0#4, 0xF1#32), (1#4, 0x4#32)] [])) (fun t =>
    ends t 0x08000002#32 0x0000007F#32 [(0#4, 0x1000000F#32)] []) = true := by decide +kernel

/-- 95_test_vectors T19: TST r0, r1. -/
theorem test_T19_thumbTst : after (run 16 0x4208 (core 0x08000000#32 0x0000007F#32 [(0#4, 0xF#32), (1#4, 0xF0#32)] [])) (fun t =>
    ends t 0x08000002#32 0x4000007F#32 [] []) = true := by decide +kernel

/-- 95_test_vectors T20: NEG r0, r1. -/
theorem test_T20_thumbNeg : after (run 16 0x4248 (core 0x08000000#32 0x0000007F#32 [(0#4, 0x0#32), (1#4, 0x1#32)] [])) (fun t =>
    ends t 0x08000002#32 0x8000007F#32 [(0#4, 0xFFFFFFFF#32)] []) = true := by decide +kernel

/-- 95_test_vectors T21: CMP r0, r1. -/
theorem test_T21_thumbCmpReg : after (run 16 0x4288 (core 0x08000000#32 0x0000007F#32 [(0#4, 0x1#32), (1#4, 0x1#32)] [])) (fun t =>
    ends t 0x08000002#32 0x6000007F#32 [] []) = true := by decide +kernel

/-- 95_test_vectors T22: CMN r0, r1. -/
theorem test_T22_thumbCmn : after (run 16 0x42C8 (core 0x08000000#32 0x0000007F#32 [(0#4, 0x1#32), (1#4, 0xFFFFFFFF#32)] [])) (fun t =>
    ends t 0x08000002#32 0x6000007F#32 [] []) = true := by decide +kernel

/-- 95_test_vectors T23: ORR r0, r1. -/
theorem test_T23_thumbOrr : after (run 16 0x4308 (core 0x08000000#32 0x0000007F#32 [(0#4, 0xF0#32), (1#4, 0xF#32)] [])) (fun t =>
    ends t 0x08000002#32 0x0000007F#32 [(0#4, 0xFF#32)] []) = true := by decide +kernel

/-- 95_test_vectors T24: MUL r0, r1. -/
theorem test_T24_thumbMul : after (run 16 0x4348 (core 0x08000000#32 0x0000007F#32 [(0#4, 0x6#32), (1#4, 0x7#32)] [])) (fun t =>
    t.pc == 0x08000002#32 && t.armReg 0#4 == 42#32 && !t.cpsr.n && !t.cpsr.z && !t.cpsr.v) = true := by decide +kernel

/-- 95_test_vectors T25: BIC r0, r1. -/
theorem test_T25_thumbBic : after (run 16 0x4388 (core 0x08000000#32 0x0000007F#32 [(0#4, 0xFF#32), (1#4, 0xF#32)] [])) (fun t =>
    ends t 0x08000002#32 0x0000007F#32 [(0#4, 0xF0#32)] []) = true := by decide +kernel

/-- 95_test_vectors T26: MVN r0, r1. -/
theorem test_T26_thumbMvn : after (run 16 0x43C8 (core 0x08000000#32 0x0000007F#32 [(0#4, 0x0#32), (1#4, 0x0#32)] [])) (fun t =>
    ends t 0x08000002#32 0x8000007F#32 [(0#4, 0xFFFFFFFF#32)] []) = true := by decide +kernel

/-- 95_test_vectors T27: ADD r8, r0. -/
theorem test_T27_thumbAddHi : after (run 16 0x4480 (core 0x08000000#32 0x0000007F#32 [(0#4, 0x1#32), (8#4, 0x2#32)] [])) (fun t =>
    ends t 0x08000002#32 0x0000007F#32 [(8#4, 0x3#32)] []) = true := by decide +kernel

/-- 95_test_vectors T28: CMP r0, r9. -/
theorem test_T28_thumbCmpHi : after (run 16 0x4548 (core 0x08000000#32 0x0000007F#32 [(0#4, 0x5#32), (9#4, 0x5#32)] [])) (fun t =>
    ends t 0x08000002#32 0x6000007F#32 [] []) = true := by decide +kernel

/-- 95_test_vectors T29: MOV r0, pc. -/
theorem test_T29_thumbMovHi : after (run 16 0x4678 (core 0x08000000#32 0x0000007F#32 [] [])) (fun t =>
    ends t 0x08000002#32 0x0000007F#32 [(0#4, 0x8000004#32)] []) = true := by decide +kernel

/-- 95_test_vectors T30: MOV pc, r0. -/
theorem test_T30_thumbMovHi : after (run 16 0x4687 (core 0x08000000#32 0x0000007F#32 [(0#4, 0x8000101#32)] [])) (fun t =>
    ends t 0x08000100#32 0x0000007F#32 [] []) = true := by decide +kernel

/-- 95_test_vectors T31: ADD r0, r1 (H1 = H2 = 0). -/
theorem test_T31_thumbAddHi :
    stops (run 16 0x4408 (core 0x08000000#32 0x0000007F#32 [(0#4, 0x0#32), (1#4, 0x0#32)] [])) .hiRegOpLowRegisters = true := by decide +kernel

/-- 95_test_vectors T32: BX r0. -/
theorem test_T32_thumbBx : after (run 16 0x4700 (core 0x08000000#32 0x0000007F#32 [(0#4, 0x8000100#32)] [])) (fun t =>
    ends t 0x08000100#32 0x0000005F#32 [] []) = true := by decide +kernel

/-- 95_test_vectors T34: LDR r0, [pc, #4]. -/
theorem test_T34_thumbLdrPc : after (run 16 0x4801 (core 0x08000002#32 0x0000007F#32 [] [(0x08000008#32, 0x11223344#32)])) (fun t =>
    ends t 0x08000004#32 0x0000007F#32 [(0#4, 0x11223344#32)] []) = true := by decide +kernel

/-- 95_test_vectors T35: STR r0, [r1, r2]. -/
theorem test_T35_thumbStrReg : after (run 16 0x5088 (core 0x08000000#32 0x0000007F#32 [(0#4, 0xAABBCCDD#32), (1#4, 0x3000000#32), (2#4, 0x4#32)] [])) (fun t =>
    ends t 0x08000002#32 0x0000007F#32 [] [(0x03000004#32, 0xDD#8), (0x03000005#32, 0xCC#8), (0x03000006#32, 0xBB#8), (0x03000007#32, 0xAA#8)]) = true := by decide +kernel

/-- 95_test_vectors T36: LDRB r0, [r1, r2]. -/
theorem test_T36_thumbLdrbReg : after (run 16 0x5C88 (core 0x08000000#32 0x0000007F#32 [(1#4, 0x3000000#32), (2#4, 0x1#32)] [(0x03000000#32, 0x11223344#32)])) (fun t =>
    ends t 0x08000002#32 0x0000007F#32 [(0#4, 0x33#32)] []) = true := by decide +kernel

/-- 95_test_vectors T37: STRH r0, [r1, r2]. -/
theorem test_T37_thumbStrhReg : after (run 16 0x5288 (core 0x08000000#32 0x0000007F#32 [(0#4, 0x12345678#32), (1#4, 0x3000000#32), (2#4, 0x2#32)] [])) (fun t =>
    ends t 0x08000002#32 0x0000007F#32 [] [(0x03000002#32, 0x78#8), (0x03000003#32, 0x56#8)]) = true := by decide +kernel

/-- 95_test_vectors T38: LDRSB r0, [r1, r2]. -/
theorem test_T38_thumbLdsbReg : after (run 16 0x5688 (core 0x08000000#32 0x0000007F#32 [(1#4, 0x3000000#32), (2#4, 0x0#32)] [(0x03000000#32, 0xFE#32)])) (fun t =>
    ends t 0x08000002#32 0x0000007F#32 [(0#4, 0xFFFFFFFE#32)] []) = true := by decide +kernel

/-- 95_test_vectors T39: LDRH r0, [r1, r2]. -/
theorem test_T39_thumbLdrhReg : after (run 16 0x5A88 (core 0x08000000#32 0x0000007F#32 [(1#4, 0x3000000#32), (2#4, 0x2#32)] [(0x03000000#32, 0x8001FFFF#32)])) (fun t =>
    ends t 0x08000002#32 0x0000007F#32 [(0#4, 0x8001#32)] []) = true := by decide +kernel

/-- 95_test_vectors T40: LDRSH r0, [r1, r2]. -/
theorem test_T40_thumbLdshReg : after (run 16 0x5E88 (core 0x08000000#32 0x0000007F#32 [(1#4, 0x3000000#32), (2#4, 0x2#32)] [(0x03000000#32, 0x8001FFFF#32)])) (fun t =>
    ends t 0x08000002#32 0x0000007F#32 [(0#4, 0xFFFF8001#32)] []) = true := by decide +kernel

/-- 95_test_vectors T42: STR r0, [r1, #4]. -/
theorem test_T42_thumbStrImm : after (run 16 0x6048 (core 0x08000000#32 0x0000007F#32 [(0#4, 0x7#32), (1#4, 0x3000000#32)] [])) (fun t =>
    ends t 0x08000002#32 0x0000007F#32 [] [(0x03000004#32, 0x07#8), (0x03000005#32, 0x00#8), (0x03000006#32, 0x00#8), (0x03000007#32, 0x00#8)]) = true := by decide +kernel

/-- 95_test_vectors T43: LDRB r0, [r1, #31]. -/
theorem test_T43_thumbLdrbImm : after (run 16 0x7FC8 (core 0x08000000#32 0x0000007F#32 [(1#4, 0x3000000#32)] [(0x0300001C#32, 0x5A000000#32)])) (fun t =>
    ends t 0x08000002#32 0x0000007F#32 [(0#4, 0x5A#32)] []) = true := by decide +kernel

/-- 95_test_vectors T44: STRH r0, [r1, #2]. -/
theorem test_T44_thumbStrhImm : after (run 16 0x8048 (core 0x08000000#32 0x0000007F#32 [(0#4, 0xBEEF#32), (1#4, 0x3000000#32)] [])) (fun t =>
    ends t 0x08000002#32 0x0000007F#32 [] [(0x03000002#32, 0xEF#8), (0x03000003#32, 0xBE#8)]) = true := by decide +kernel

/-- 95_test_vectors T45: LDRH r0, [r1, #62]. -/
theorem test_T45_thumbLdrhImm : after (run 16 0x8FC8 (core 0x08000000#32 0x0000007F#32 [(1#4, 0x3000000#32)] [(0x0300003C#32, 0x12340000#32)])) (fun t =>
    ends t 0x08000002#32 0x0000007F#32 [(0#4, 0x1234#32)] []) = true := by decide +kernel

/-- 95_test_vectors T46: STR r0, [sp, #8]. -/
theorem test_T46_thumbStrSp : after (run 16 0x9002 (core 0x08000000#32 0x0000007F#32 [(0#4, 0x9#32), (13#4, 0x3007F00#32)] [])) (fun t =>
    ends t 0x08000002#32 0x0000007F#32 [] [(0x03007F08#32, 0x09#8), (0x03007F09#32, 0x00#8), (0x03007F0A#32, 0x00#8), (0x03007F0B#32, 0x00#8)]) = true := by decide +kernel

/-- 95_test_vectors T47: LDR r1, [sp, #1020]. -/
theorem test_T47_thumbLdrSp : after (run 16 0x99FF (core 0x08000000#32 0x0000007F#32 [(13#4, 0x3007000#32)] [(0x030073FC#32, 0x77#32)])) (fun t =>
    ends t 0x08000002#32 0x0000007F#32 [(1#4, 0x77#32)] []) = true := by decide +kernel

/-- 95_test_vectors T48: ADD r0, pc, #8. -/
theorem test_T48_thumbAddPc : after (run 16 0xA002 (core 0x08000002#32 0x0000007F#32 [] [])) (fun t =>
    ends t 0x08000004#32 0x0000007F#32 [(0#4, 0x800000C#32)] []) = true := by decide +kernel

/-- 95_test_vectors T49: ADD r0, sp, #4. -/
theorem test_T49_thumbAddSp : after (run 16 0xA801 (core 0x08000000#32 0x0000007F#32 [(13#4, 0x3007F00#32)] [])) (fun t =>
    ends t 0x08000002#32 0x0000007F#32 [(0#4, 0x3007F04#32)] []) = true := by decide +kernel

/-- 95_test_vectors T50: ADD sp, #-8. -/
theorem test_T50_thumbSubSpImm : after (run 16 0xB082 (core 0x08000000#32 0x0000007F#32 [(13#4, 0x3007F00#32)] [])) (fun t =>
    ends t 0x08000002#32 0x0000007F#32 [(13#4, 0x3007EF8#32)] []) = true := by decide +kernel

/-- 95_test_vectors T51: PUSH {r0, r1, lr}. -/
theorem test_T51_thumbPushLr : after (run 16 0xB503 (core 0x08000000#32 0x0000007F#32 [(0#4, 0x1#32), (1#4, 0x2#32), (13#4, 0x3007F00#32), (14#4, 0x8000011#32)] [])) (fun t =>
    ends t 0x08000002#32 0x0000007F#32 [(13#4, 0x3007EF4#32)] [(0x03007EF4#32, 0x01#8), (0x03007EF5#32, 0x00#8), (0x03007EF6#32, 0x00#8), (0x03007EF7#32, 0x00#8), (0x03007EF8#32, 0x02#8), (0x03007EF9#32, 0x00#8), (0x03007EFA#32, 0x00#8), (0x03007EFB#32, 0x00#8), (0x03007EFC#32, 0x11#8), (0x03007EFD#32, 0x00#8), (0x03007EFE#32, 0x00#8), (0x03007EFF#32, 0x08#8)]) = true := by decide +kernel

/-- 95_test_vectors T52: POP {r0, r1, pc}. -/
theorem test_T52_thumbPopPc : after (run 16 0xBD03 (core 0x08000000#32 0x0000007F#32 [(13#4, 0x3007EF4#32)] [(0x03007EF4#32, 0x1#32), (0x03007EF8#32, 0x2#32), (0x03007EFC#32, 0x8000011#32)])) (fun t =>
    ends t 0x08000010#32 0x0000007F#32 [(13#4, 0x3007F00#32), (0#4, 0x1#32), (1#4, 0x2#32)] []) = true := by decide +kernel

/-- 95_test_vectors T53: PUSH {}. -/
theorem test_T53_thumbPush :
    stops (run 16 0xB400 (core 0x08000000#32 0x0000007F#32 [(13#4, 0x3007F00#32)] [])) .emptyRegisterList = true := by decide +kernel

/-- 95_test_vectors T54: STMIA r0!, {r1, r2}. -/
theorem test_T54_thumbStmia : after (run 16 0xC006 (core 0x08000000#32 0x0000007F#32 [(0#4, 0x3000000#32), (1#4, 0x5#32), (2#4, 0x6#32)] [])) (fun t =>
    ends t 0x08000002#32 0x0000007F#32 [(0#4, 0x3000008#32)] [(0x03000000#32, 0x05#8), (0x03000001#32, 0x00#8), (0x03000002#32, 0x00#8), (0x03000003#32, 0x00#8), (0x03000004#32, 0x06#8), (0x03000005#32, 0x00#8), (0x03000006#32, 0x00#8), (0x03000007#32, 0x00#8)]) = true := by decide +kernel

/-- 95_test_vectors T55: LDMIA r0!, {r1, r2}. -/
theorem test_T55_thumbLdmia : after (run 16 0xC806 (core 0x08000000#32 0x0000007F#32 [(0#4, 0x3000000#32)] [(0x03000000#32, 0x5#32), (0x03000004#32, 0x6#32)])) (fun t =>
    ends t 0x08000002#32 0x0000007F#32 [(0#4, 0x3000008#32), (1#4, 0x5#32), (2#4, 0x6#32)] []) = true := by decide +kernel

/-- 95_test_vectors T56: BEQ +8. -/
theorem test_T56_thumbBeq : after (run 16 0xD004 (core 0x08000000#32 0x4000007F#32 [] [])) (fun t =>
    ends t 0x0800000C#32 0x4000007F#32 [] []) = true := by decide +kernel

/-- 95_test_vectors T57: BNE +8. -/
theorem test_T57_thumbBne : after (run 16 0xD104 (core 0x08000000#32 0x4000007F#32 [] [])) (fun t =>
    ends t 0x08000002#32 0x4000007F#32 [] []) = true := by decide +kernel

/-- 95_test_vectors T58: BLT -4. -/
theorem test_T58_thumbBlt : after (run 16 0xDBFE (core 0x08000010#32 0x8000007F#32 [] [])) (fun t =>
    ends t 0x08000010#32 0x8000007F#32 [] []) = true := by decide +kernel

/-- 95_test_vectors T59: SWI 5. -/
theorem test_T59_thumbSwi : after (run 16 0xDF05 (core 0x08000200#32 0x00000070#32 [] [])) (fun t =>
    ends t 0x00000008#32 0x000000D3#32 [(14#4, 0x8000202#32)] [] && t.spsrs.get? t.cpsr.mode == some 0x00000070#32) = true := by decide +kernel

/-- 95_test_vectors T60: B -4 (self). -/
theorem test_T60_thumbB : after (run 16 0xE7FE (core 0x08000000#32 0x0000007F#32 [] [])) (fun t =>
    ends t 0x08000000#32 0x0000007F#32 [] []) = true := by decide +kernel

/-- 95_test_vectors T62: BL first half. -/
theorem test_T62_thumbBlHi : after (run 16 0xF000 (core 0x08000000#32 0x0000007F#32 [] [])) (fun t =>
    ends t 0x08000002#32 0x0000007F#32 [(14#4, 0x8000004#32)] []) = true := by decide +kernel

/-- 95_test_vectors T63: BL second half. -/
theorem test_T63_thumbBlLo : after (run 16 0xF87E (core 0x08000002#32 0x0000007F#32 [(14#4, 0x8000004#32)] [])) (fun t =>
    ends t 0x08000100#32 0x0000007F#32 [(14#4, 0x8000005#32)] []) = true := by decide +kernel

/-- 95_test_vectors T64: (Undefined) 0xE800. -/
theorem test_T64_thumbUndefLong : after (run 16 0xE800 (core 0x08000000#32 0x0000007F#32 [] [])) (fun t =>
    ends t 0x00000004#32 0x000000DB#32 [(14#4, 0x8000002#32)] [] && t.spsrs.get? t.cpsr.mode == some 0x0000007F#32) = true := by decide +kernel

/-- 95_test_vectors T65: (Undefined) 0xB100. -/
theorem test_T65_thumbUndefMisc : after (run 16 0xB100 (core 0x08000000#32 0x0000007F#32 [] [])) (fun t =>
    ends t 0x00000004#32 0x000000DB#32 [(14#4, 0x8000002#32)] [] && t.spsrs.get? t.cpsr.mode == some 0x0000007F#32) = true := by decide +kernel

/-- 95_test_vectors F2: CMP r1, r2 with Rd = 3. -/
theorem test_F2_armCmp :
    stops (run 32 0xE1513002 (core 0x08000000#32 0x0000005F#32 [] [])) .sbzSboViolation = true := by decide +kernel

/-- 95_test_vectors F3: LDRD-space halfword store SH = 10. -/
theorem test_F3_armStrhDspace :
    stops (run 32 0xE1C100D0 (core 0x08000000#32 0x0000005F#32 [] [])) .halfwordLoadStoreDoubleSpace = true := by decide +kernel

/-- 95_test_vectors F4: MRS pc, CPSR. -/
theorem test_F4_armMrs :
    stops (run 32 0xE10FF000 (core 0x08000000#32 0x0000005F#32 [] [])) .mrsToPc = true := by decide +kernel

/-- 95_test_vectors F8: MUL r1, r1, r2. -/
theorem test_F8_armMul :
    stops (run 32 0xE0010291 (core 0x08000000#32 0x0000005F#32 [] [])) .multiplyOperands = true := by decide +kernel

/-- 95_test_vectors F11: SWP r1, r2, [r2]. -/
theorem test_F11_armSwp :
    stops (run 32 0xE1021092 (core 0x08000000#32 0x0000005F#32 [] [])) .swapOperands = true := by decide +kernel

/-- 95_test_vectors F23: STMIA r1, {r0}^ in System mode. -/
theorem test_F23_armStmUser :
    stops (run 32 0xE8C10001 (core 0x08000000#32 0x0000005F#32 [(0#4, 0x0#32), (1#4, 0x3000000#32)] [])) .userBankInUserMode = true := by decide +kernel

/-- 95_test_vectors F26: LDMIA r1!, {r0}^ in IRQ mode. -/
theorem test_F26_armLdmUser :
    stops (run 32 0xE8F10001 (core 0x08000000#32 0x000000D2#32 [(1#4, 0x3000000#32)] [])) .userBankWriteback = true := by decide +kernel

/-- 95_test_vectors F28: Thumb BX with bits 2..0 = 1. -/
theorem test_F28_thumbBx :
    stops (run 16 0x4701 (core 0x08000000#32 0x0000007F#32 [(0#4, 0x8000000#32)] [])) .thumbBxFields = true := by decide +kernel

/-- 95_test_vectors F29: Thumb MUL r1, r1. -/
theorem test_F29_thumbMul :
    stops (run 16 0x4349 (core 0x08000000#32 0x0000007F#32 [(1#4, 0x3#32)] [])) .multiplyOperands = true := by decide +kernel

/-- 95_test_vectors F31: STR r0, [r1] into the next instruction slot. -/
theorem test_F31_armStrImmPre :
    stops (run 32 0xE5810000 (core 0x03000000#32 0x0000005F#32 [(0#4, 0x0#32), (1#4, 0x3000004#32)] [(0x03000000#32, 0xE5810000#32)])) .prefetchWindowWrite = true := by decide +kernel

/-- 95_test_vectors E6: (IRQ, ARM state). -/
theorem test_E6_irqEntry : after (run 32 0xE1A00000 (granule 0x208 0x1#16 (granule 0x202 0x1#16 (granule 0x200 0x1#16 (core 0x08000100#32 0x0000005F#32 [] []))))) (fun t =>
    ends t 0x00000018#32 0x000000D2#32 [(14#4, 0x8000104#32)] [] && t.spsrs.get? t.cpsr.mode == some 0x0000005F#32) = true := by decide +kernel

/-! ### WellFormed: an ill-formed term for each check is refused, a well-formed one beside it is not -/

/-- A multiply space row whose bits spell MUL, UMULL or SWP is refused. -/
theorem test_illformed_mulspace : WellFormed (.armUndefMulspace .al 0b00000#5 0#12 0#4) = false ∧
    WellFormed (.armUndefMulspace .al 0b00011#5 0#12 0#4) = false ∧
    WellFormed (.armUndefMulspace .al 0b01000#5 0#12 0#4) = false ∧
    WellFormed (.armUndefMulspace .al 0b10100#5 0#12 0#4) = false ∧
    WellFormed (.armUndefMulspace .al 0b00100#5 0#12 0#4) = true := by decide

/-- A miscellaneous row whose bits spell MRS, BX, a halfword transfer, or MSR with an immediate is refused. -/
theorem test_illformed_misc : WellFormed (.armUndefMisc .al false 0b00#2 0xF0000#20) = false ∧
    WellFormed (.armUndefMisc .al false 0b01#2 0xFFF1E#20) = false ∧
    WellFormed (.armUndefMisc .al false 0b11#2 0x00090#20) = false ∧
    WellFormed (.armUndefMisc .al true 0b01#2 0x00000#20) = false ∧
    WellFormed (.armUndefMisc .al true 0b00#2 0x00000#20) = true ∧
    WellFormed (.armUndefMisc .al false 0b11#2 0x00010#20) = true := by decide

/-- A Thumb row whose bits spell ADD SP, PUSH or POP is refused. -/
theorem test_illformed_thumb : WellFormed (.thumbUndefMisc 0x0#4 0#8) = false ∧
    WellFormed (.thumbUndefMisc 0x4#4 0#8) = false ∧ WellFormed (.thumbUndefMisc 0x5#4 0#8) = false ∧
    WellFormed (.thumbUndefMisc 0xC#4 0#8) = false ∧ WellFormed (.thumbUndefMisc 0xD#4 0#8) = false ∧
    WellFormed (.thumbUndefMisc 0xE#4 0#8) = true := by decide

/-! ### Witnesses: a concrete state and operands for the hypotheses of every obligation, clause by clause -/

open Sys2Proof.Statements

/-- System mode, ARM state, Z and C set; r1 word aligned, r2 with bit 1 set, r3 and r4 addresses in EWRAM. -/
def sysArm : State := core 0x08000000#32 0x6000005F#32
  [(1#4, 0x08000100#32), (2#4, 0x08000102#32), (3#4, 0x02000000#32), (4#4, 0x02000001#32)] []

/-- User mode, ARM state. -/
def userArm : State := core 0x08000000#32 0x00000050#32 [] []

/-- IRQ mode, ARM state, with an SPSR. -/
def irqArm (spsr : Word) : State := saved spsr (core 0x08000000#32 0x000000D2#32
  [(1#4, 0x08000100#32), (2#4, 0x08000102#32), (3#4, 0x02000000#32)] [])

/-- System mode, Thumb state; r3 an address in EWRAM, r13 one too. -/
def sysThumb : State := core 0x08000000#32 0x0000007F#32
  [(1#4, 0x08000101#32), (2#4, 0x08000102#32), (3#4, 0x02000000#32), (4#4, 0x02000001#32), (13#4, 0x02000100#32)] []

/-- Base registers in cartridge SRAM, in ARM state, in IRQ mode and in Thumb state. -/
def sramArm : State := core 0x08000000#32 0x6000005F#32 [(1#4, 0x08000100#32), (3#4, 0x0E000000#32)] []

def sramIrq : State := core 0x08000000#32 0x000000D2#32 [(3#4, 0x0E000000#32)] []

def sramThumb : State := core 0x08000000#32 0x0000007F#32 [(3#4, 0x0E000000#32), (13#4, 0x0E000100#32)] []

/-- Code in EWRAM, with base registers at the instruction and 12 bytes on, in ARM state, in IRQ mode and in Thumb state. -/
def runInRam : State := core 0x02000000#32 0x0000005F#32 [(3#4, 0x02000000#32), (4#4, 0x02000008#32)] []

def runInRamIrq : State := core 0x02000000#32 0x000000D2#32 [(3#4, 0x02000008#32)] []

def runInRamThumb : State := core 0x02000000#32 0x0000007F#32 [(3#4, 0x02000000#32), (4#4, 0x02000004#32),
  (13#4, 0x02000008#32)] []

/-- A load that is no wide access to SRAM. -/
theorem loadAdmitted_of {w : Width} {a : Word} (h : sramWide w a = false) : loadAdmitted w a := h

/-- Every word of a block transfer is admitted as a load. -/
def loadsAdmitted (l : List (RegNum × Word)) : Bool := l.all fun x => !sramWide .word x.2

/-- Every word of a block transfer is admitted as a store. -/
def storesAdmitted (l : List (RegNum × Word)) (s : State) (v : RegNum → Word) : Bool :=
  l.all fun x => !sramWide .word x.2 && !hitsWindow s.cpsr.t (s.pc + s.instrLength) .word x.2 (v x.1)

theorem loadAdmitted_slots {l : List (RegNum × Word)} (h : loadsAdmitted l = true) :
    ∀ x ∈ l, loadAdmitted .word x.2 := by
  intro x hx
  simpa [loadAdmitted] using List.all_eq_true.1 h x hx

theorem storeAdmitted_slots {l : List (RegNum × Word)} {s : State} {v : RegNum → Word}
    (h : storesAdmitted l s v = true) : ∀ x ∈ l, storeAdmitted s .word x.2 (v x.1) := by
  intro x hx
  simpa [storeAdmitted] using List.all_eq_true.1 h x hx

/-- A store that lands in EWRAM on byte `k` of the two instruction slots from `start` on. -/
theorem storesInto_of {thumb : Bool} {start : Word} {w : Width} {a : Word} (k : Nat)
    (h : (regionOf a == .ewram && decide (k < if thumb then 4 else 8) &&
      (storedAddresses w a).any fun b => keyOf b == keyOf (start + BitVec.ofNat 32 k)) = true) :
    StoresInto thumb start w a := by
  simp only [Bool.and_eq_true, beq_iff_eq, decide_eq_true_eq, List.any_eq_true] at h
  obtain ⟨⟨hr, hk⟩, b, hb, he⟩ := h
  exact ⟨.inl hr, b, hb, k, hk, he⟩

/-- The first word of a block store lies in cartridge SRAM. -/
theorem stopsAtSram_of {s : State} {l : List (RegNum × Word)} (x : RegNum × Word)
    (h : l.head? = some x ∧ WideSram .word x.2) : StopsAtSram s l :=
  ⟨[], x, l.tail, (List.head?_eq_some_iff.1 h.1).elim fun _ e => by rw [e]; rfl, fun _ hy => by simp at hy, h.2⟩

/-- The first word of a block store meets the next two instruction slots. -/
theorem stopsAtWindow_of {s : State} {l : List (RegNum × Word)} (x : RegNum × Word) (h : l.head? = some x)
    (hw : ¬WideSram .word x.2) (hm : MeetsWindow s .word x.2) : StopsAtWindow s l :=
  ⟨[], x, l.tail, (List.head?_eq_some_iff.1 h).elim fun _ e => by rw [e]; rfl, fun _ hy => by simp at hy, hw, hm⟩

/-- Rm shifted by nothing. -/
def plainReg (rm : RegNum) : Operand2 := .shiftImm 0#5 .lsl rm

theorem test_witness_ArmLogicalOperations : condPassed .al sysArm.cpsr = true ∧ (14#4 : RegNum) ≠ 15#4 ∧
    (true = false → (7#4 : RegNum) = 0#4) ∧ (false = false → (0#4 : RegNum) = 0#4) := by decide +kernel

theorem test_witness_ArmArithmeticOperations : condPassed .eq sysArm.cpsr = true ∧ (0#4 : RegNum) ≠ 15#4 := by
  decide +kernel

theorem test_witness_ArmTestOperations : condPassed .ls sysArm.cpsr = true := by decide +kernel

theorem test_witness_ArmDataProcessingBranch :
    (Instr.armMov, DpOp.mov) ∈ dpWriters ∧ (Instr.armMvn, DpOp.mvn) ∈ dpWriters ∧
    condPassed .al sysArm.cpsr = true ∧ (DpOp.mov.ignoresRn = true → (0#4 : RegNum) = 0#4) ∧
    (dpResult .mov 0#4 (plainReg 1#4) sysArm).1.extractLsb' 0 2 = 0#2 ∧
    (dpResult .mov 0#4 (plainReg 2#4) sysArm).1.extractLsb' 0 2 ≠ 0#2 :=
  ⟨by simp [dpWriters], by simp [dpWriters], by decide +kernel, fun _ => rfl, by decide +kernel, by decide +kernel⟩

theorem test_witness_StatusWordLayout : sysArm.cpsr.toWord = (core 0#32 0x6000005F#32 [] []).cpsr.toWord ∧
    sysArm.spsrs.get? .sys = none ∧ sysArm.spsrs.get? .fiq ≠ none := by decide +kernel

/-- No SPSR; an illegal mode; an ARM target that is not aligned; a return to Thumb and one to ARM. -/
theorem test_witness_ArmExceptionReturn :
    (Instr.armMov, DpOp.mov) ∈ dpWriters ∧ condPassed .al sysArm.cpsr = true ∧
    sysArm.spsrs.get? sysArm.cpsr.mode = none ∧
    ((irqArm 0x10#32).spsrs.get? (irqArm 0x10#32).cpsr.mode = some 0x10#32 ∧ legalModeBits 0x10#5 = true) ∧
    ((irqArm 0x14#32).spsrs.get? (irqArm 0x14#32).cpsr.mode = some 0x14#32 ∧ legalModeBits 0x14#5 = false) ∧
    (dpResult .mov 0#4 (plainReg 2#4) (irqArm 0x10#32)).1.extractLsb' 0 2 ≠ 0#2 ∧
    (dpResult .mov 0#4 (plainReg 1#4) (irqArm 0x10#32)).1.extractLsb' 0 2 = 0#2 ∧
    ((irqArm 0x3F#32).spsrs.get? (irqArm 0x3F#32).cpsr.mode = some 0x3F#32 ∧ (0x3F#32 : Word).getLsbD 5 = true) :=
  ⟨by simp [dpWriters], by decide +kernel, by decide +kernel, by decide +kernel, by decide +kernel, by decide +kernel,
    by decide +kernel, by decide +kernel⟩

theorem test_witness_MrsResult : condPassed .al sysArm.cpsr = true ∧ (0#4 : RegNum) ≠ 15#4 ∧
    sysArm.spsrs.get? sysArm.cpsr.mode = none ∧
    (irqArm 0xF00000FF#32).spsrs.get? (irqArm 0xF00000FF#32).cpsr.mode = some 0xF00000FF#32 := by decide +kernel

/-- Each form of MSR; User mode; a privileged mode with mask bit 0 clear; T changed; an illegal mode; a legal one. -/
theorem test_witness_MsrToStatus : condPassed .al userArm.cpsr = true ∧
    IsMsr (.armMsrReg .al false 9#4 15#4 0#4 1#4) .al false 9#4 sysArm (sysArm.armReg 1#4) ∧
    IsMsr (.armMsrImm .al false 9#4 15#4 0#4 0x1F#8) .al false 9#4 sysArm (rotatedImm 0#4 0x1F#8 sysArm.cpsr.c).1 ∧
    userArm.cpsr.mode = .user ∧ (8#4 : BitVec 4).getLsbD 0 = false ∧
    ¬(sysArm.cpsr.mode = .user ∨ (9#4 : BitVec 4).getLsbD 0 = false) ∧
    (rotatedImm 0#4 0x3F#8 sysArm.cpsr.c).1.getLsbD 5 ≠ sysArm.cpsr.t ∧
    ((rotatedImm 0#4 0x1E#8 sysArm.cpsr.c).1.getLsbD 5 = sysArm.cpsr.t ∧ legalModeBits 0x1E#5 = false) ∧
    legalModeBits ((rotatedImm 0#4 0x1F#8 sysArm.cpsr.c).1.extractLsb' 0 5) = true :=
  ⟨by decide +kernel, .inl ⟨1#4, by decide, rfl, rfl⟩, .inr ⟨0#4, 0x1F#8, rfl, rfl⟩, by decide +kernel, by decide,
    by decide +kernel, by decide +kernel, by decide +kernel, by decide +kernel⟩

theorem test_witness_MsrToSaved : condPassed .al (irqArm 0x10#32).cpsr = true ∧
    IsMsr (.armMsrReg .al true 15#4 15#4 0#4 14#4) .al true 15#4 (irqArm 0x10#32) ((irqArm 0x10#32).armReg 14#4) ∧
    sysArm.spsrs.get? sysArm.cpsr.mode = none ∧
    (irqArm 0x10#32).spsrs.get? (irqArm 0x10#32).cpsr.mode = some 0x10#32 :=
  ⟨by decide +kernel, .inl ⟨14#4, by decide, rfl, rfl⟩, by decide +kernel, by decide +kernel⟩

theorem test_witness_FixedFieldsRefused : condPassed .al sysArm.cpsr = true ∧ (1#4 : RegNum) ≠ 0#4 ∧
    (14#4 : BitVec 4) ≠ 15#4 ∧ Instr.armTst ∈ dpTests ∧ Instr.armCmn ∈ dpTests ∧ (0xFFE#12 : BitVec 12) ≠ 0xFFF#12 :=
  ⟨by decide +kernel, by decide, by decide, by simp [dpTests], by simp [dpTests], by decide⟩

/-- The amounts at the ends of each range, and what the clauses give there (40_shifter_alu R357, R364). -/
theorem test_witness_ShifterResults : ((31 : Nat) < 32 ∧ (31 : Nat) ≠ 0 ∧
      shiftImmOp .lsl 3#32 31 false = (0x80000000#32, true) ∧
      shiftImmOp .ror 2#32 0 true = (0x80000001#32, false)) ∧
    (255 : Nat) < 256 ∧ ¬(32 : Nat) < 32 ∧ (64 : Nat) % 32 = 0 ∧
    shiftRegOp .lsl 1#32 32 false = (0#32, true) ∧ shiftRegOp .lsr 0x80000000#32 33 true = (0#32, false) ∧
    shiftRegOp .asr 0x80000000#32 255 false = (0xFFFFFFFF#32, true) ∧
    shiftRegOp .ror 0x80000000#32 64 false = (0x80000000#32, true) := by decide +kernel

theorem test_witness_SecondOperandForms :
    shifterOperand (.imm 15#4 0xFF#8) sysArm = (0x3FC#32, false) ∧
    shifterOperand (.shiftImm 0#5 .lsl 15#4) sysArm = (0x08000008#32, true) ∧
    (shifterOperand (.shiftReg 0#4 .lsl 15#4) sysArm).1 = 0x0800000C#32 ∧
    firstOperand 15#4 (.imm 0#4 0#8) sysArm = 0x08000008#32 ∧
    firstOperand 15#4 (.shiftImm 0#5 .lsl 0#4) sysArm = 0x08000008#32 ∧
    firstOperand 15#4 (.shiftReg 0#4 .lsl 0#4) sysArm = 0x0800000C#32 := by decide +kernel

theorem test_witness_MultiplyResults : condPassed .al sysArm.cpsr = true ∧
    ¬((2#4 : RegNum) = 15#4 ∨ (1#4 : RegNum) = 15#4 ∨ (3#4 : RegNum) = 15#4 ∨ (2#4 : RegNum) = 3#4) ∧
    ((2#4 : RegNum) = 2#4) ∧
    ¬((0#4 : RegNum) = 15#4 ∨ (1#4 : RegNum) = 15#4 ∨ (2#4 : RegNum) = 15#4 ∨ (3#4 : RegNum) = 15#4 ∨
      (0#4 : RegNum) = 1#4 ∨ (0#4 : RegNum) = 3#4 ∨ (1#4 : RegNum) = 3#4) := by decide +kernel

theorem test_witness_SwapResults : condPassed .al sysArm.cpsr = true ∧
    ¬((5#4 : RegNum) = 15#4 ∨ (4#4 : RegNum) = 15#4 ∨ (1#4 : RegNum) = 15#4 ∨ (4#4 : RegNum) = 1#4 ∨
      (4#4 : RegNum) = 5#4) ∧
    storeAdmitted sysArm .word (sysArm.armReg 4#4) (sysArm.armReg 1#4) ∧
    storeAdmitted sysArm .byte (sysArm.armReg 4#4) (sysArm.armReg 1#4) ∧ WideSram .word (sramArm.armReg 3#4) :=
  ⟨by decide +kernel, by decide, ⟨by decide +kernel, by decide +kernel⟩, ⟨by decide +kernel, by decide +kernel⟩,
    by unfold WideSram; decide +kernel⟩

/-- Pre-indexed with writeback, and the post-indexed forms. -/
def preWriteback : Indexing := { p := true, u := true, w := true }

def postDown : Indexing := { p := false, u := false, w := false }

theorem test_witness_TransferAddressing :
    transferMoved preWriteback 3#4 (.imm 4#12) sysArm = 0x02000004#32 ∧
    transferAddress postDown 3#4 (.imm 4#12) sysArm = 0x02000000#32 ∧
    transferMoved postDown 3#4 (.imm 4#12) sysArm = 0x01FFFFFC#32 := by decide +kernel

theorem test_witness_LoadResults : condPassed .al sysArm.cpsr = true ∧
    transferAdmitted preWriteback 3#4 5#4 (.imm 0xFFF#12) true ∧ (5#4 : RegNum) ≠ 15#4 ∧
    loadAdmitted .word (transferAddress preWriteback 3#4 (.imm 0xFFF#12) sysArm) :=
  ⟨by decide +kernel, ⟨rfl, fun _ => ⟨by decide, fun _ => by decide⟩⟩, by decide, loadAdmitted_of (by decide +kernel)⟩

/-- An aligned address and one that is not. -/
theorem test_witness_LoadPc : condPassed .al sysArm.cpsr = true ∧
    transferAdmitted preWriteback 3#4 15#4 (.imm 4#12) true ∧
    loadAdmitted .word (transferAddress preWriteback 3#4 (.imm 4#12) sysArm) ∧
    (transferAddress preWriteback 3#4 (.imm 4#12) sysArm).toNat % 4 = 0 ∧
    loadAdmitted .word (transferAddress preWriteback 3#4 (.imm 2#12) sysArm) ∧
    (transferAddress preWriteback 3#4 (.imm 2#12) sysArm).toNat % 4 ≠ 0 :=
  ⟨by decide +kernel, ⟨rfl, fun _ => ⟨by decide, fun _ => by decide⟩⟩, loadAdmitted_of (by decide +kernel),
    by decide +kernel, loadAdmitted_of (by decide +kernel), by decide +kernel⟩

/-- The base stored under writeback, r15 stored, and a byte stored. -/
theorem test_witness_StoreResults : condPassed .al sysArm.cpsr = true ∧
    transferAdmitted preWriteback 3#4 3#4 (.imm 4#12) false ∧
    storeAdmitted sysArm .word (transferAddress preWriteback 3#4 (.imm 4#12) sysArm) (sysArm.armReg 3#4) ∧
    transferAdmitted preWriteback 3#4 15#4 (.imm 4#12) false ∧
    storeAdmitted sysArm .word (transferAddress preWriteback 3#4 (.imm 4#12) sysArm) (sysArm.pc + 12#32) ∧
    storeAdmitted sysArm .byte (transferAddress preWriteback 3#4 (.imm 5#12) sysArm) (sysArm.armReg 3#4) :=
  ⟨by decide +kernel, ⟨rfl, fun _ => ⟨by decide, fun h => by cases h⟩⟩, ⟨by decide +kernel, by decide +kernel⟩,
    ⟨rfl, fun _ => ⟨by decide, fun h => by cases h⟩⟩, ⟨by decide +kernel, by decide +kernel⟩,
    ⟨by decide +kernel, by decide +kernel⟩⟩

theorem test_witness_HalfwordTransfers : condPassed .al sysArm.cpsr = true ∧
    (halfwordAdmitted preWriteback 3#4 5#4 (.imm 15#4 14#4) true ∧
      (halfwordAddress preWriteback 3#4 (.imm 15#4 14#4) sysArm).toNat % 2 = 0 ∧
      loadAdmitted .half (halfwordAddress preWriteback 3#4 (.imm 15#4 14#4) sysArm)) ∧
    halfwordAdmitted postDown 3#4 3#4 (.reg 1#4) false ∧
    (halfwordAddress postDown 3#4 (.reg 1#4) sysArm).toNat % 2 = 0 ∧
    storeAdmitted sysArm .half (halfwordAddress postDown 3#4 (.reg 1#4) sysArm) (sysArm.armReg 3#4) :=
  ⟨by decide +kernel,
    ⟨⟨rfl, .inl rfl, by decide, fun _ => ⟨by decide, fun _ => by decide⟩⟩, by decide +kernel,
      loadAdmitted_of (by decide +kernel)⟩,
    ⟨rfl, .inr rfl, by decide, fun _ => ⟨by decide, fun h => by cases h⟩⟩, by decide +kernel,
    ⟨by decide +kernel, by decide +kernel⟩⟩

/-- An offset r15; writeback to r15; the base loaded under writeback; r15 as a byte; W = 1 after post-indexing; an odd
address; a word and a halfword in cartridge SRAM, r15 loaded from a misaligned word there. -/
theorem test_witness_TransfersRefused : condPassed .al sysArm.cpsr = true ∧
    (Offset12.reg 0#5 .lsl 15#4).usesPc = true ∧ (Offset12.imm 4#12).usesPc = false ∧ preWriteback.writesBack = true ∧
    transferAdmitted preWriteback 3#4 15#4 (.imm 4#12) true ∧ transferAdmitted preWriteback 3#4 15#4 (.imm 4#12) false ∧
    (Offset8.reg 15#4).usesPc = true ∧ (Offset8.imm 0#4 1#4).usesPc = false ∧
    (halfwordAddress preWriteback 3#4 (.imm 0#4 1#4) sysArm).toNat % 2 = 1 ∧
    halfwordAdmitted preWriteback 3#4 5#4 (.imm 0#4 1#4) true ∧ halfwordAdmitted preWriteback 3#4 5#4 (.imm 0#4 1#4) false ∧
    condPassed .al sramArm.cpsr = true ∧ WideSram .word (transferAddress preWriteback 3#4 (.imm 4#12) sramArm) ∧
    WideSram .word (transferAddress preWriteback 3#4 (.imm 6#12) sramArm) ∧
    (transferAddress preWriteback 3#4 (.imm 6#12) sramArm).toNat % 4 ≠ 0 ∧
    (halfwordAddress preWriteback 3#4 (.imm 0#4 2#4) sramArm).toNat % 2 = 0 ∧
    WideSram .half (halfwordAddress preWriteback 3#4 (.imm 0#4 2#4) sramArm) :=
  ⟨by decide +kernel, rfl, rfl, rfl, ⟨rfl, fun _ => ⟨by decide, fun _ => by decide⟩⟩,
    ⟨rfl, fun _ => ⟨by decide, fun h => by cases h⟩⟩, rfl, rfl, by decide +kernel,
    ⟨rfl, .inl rfl, by decide, fun _ => ⟨by decide, fun _ => by decide⟩⟩,
    ⟨rfl, .inl rfl, by decide, fun _ => ⟨by decide, fun h => by cases h⟩⟩, by decide +kernel,
    by unfold WideSram; decide +kernel, by unfold WideSram; decide +kernel, by decide +kernel, by decide +kernel,
    by unfold WideSram; decide +kernel⟩

/-- An empty list, one register, all sixteen; the four starts of two registers. -/
theorem test_witness_BlockAddresses : listedRegs 0#16 = [] ∧ listedRegs 0x8000#16 = [15#4] ∧
    (listedRegs 0xFFFF#16).length = 16 ∧ (listedRegs 0x8001#16)[1]? = some 15#4 ∧
    blockStart false true 0x100#32 0x8001#16 = 0x100#32 ∧ blockStart true true 0x100#32 0x8001#16 = 0x104#32 ∧
    blockStart false false 0x100#32 0x8001#16 = 0xFC#32 ∧ blockStart true false 0x100#32 0x8001#16 = 0xF8#32 := by
  decide +kernel

theorem test_witness_LoadMultiple : condPassed .al sysArm.cpsr = true ∧ (0x0021#16 : BitVec 16) ≠ 0#16 ∧
    (3#4 : RegNum) ≠ 15#4 ∧ noListedBase true 3#4 0x0021#16 ∧ (0x0021#16 : BitVec 16).getLsbD 15 = false ∧
    ∀ x ∈ slotsOf false true 3#4 0x0021#16 sysArm, loadAdmitted .word x.2 :=
  ⟨by decide +kernel, by decide, by decide, fun _ => by decide, by decide, loadAdmitted_slots (by decide +kernel)⟩

/-- No SPSR; an illegal mode field; a return to ARM and one to Thumb. -/
theorem test_witness_LoadMultiplePc : condPassed .al sysArm.cpsr = true ∧ (3#4 : RegNum) ≠ 15#4 ∧
    noListedBase true 3#4 0x8001#16 ∧ (0x8001#16 : BitVec 16).getLsbD 15 = true ∧
    (∀ x ∈ slotsOf false true 3#4 0x8001#16 sysArm, loadAdmitted .word x.2) ∧
    sysArm.spsrs.get? sysArm.cpsr.mode = none ∧
    (∀ x ∈ slotsOf false true 3#4 0x8001#16 (irqArm 0x10#32), loadAdmitted .word x.2) ∧
    (irqArm 0x10#32).spsrs.get? (irqArm 0x10#32).cpsr.mode = some 0x10#32 ∧ legalModeBits 0x10#5 = true ∧
    (irqArm 0x0#32).spsrs.get? (irqArm 0x0#32).cpsr.mode = some 0x0#32 ∧ legalModeBits 0x00#5 = false ∧
    (irqArm 0x30#32).spsrs.get? (irqArm 0x30#32).cpsr.mode = some 0x30#32 ∧ (0x30#32 : Word).getLsbD 5 = true :=
  ⟨by decide +kernel, by decide, fun _ => by decide, by decide, loadAdmitted_slots (by decide +kernel), by decide +kernel,
    loadAdmitted_slots (by decide +kernel), by decide +kernel, by decide, by decide +kernel, by decide,
    by decide +kernel, by decide⟩

/-- A lowest listed base under writeback, r15 stored; the user bank stored from IRQ mode. -/
theorem test_witness_StoreMultiple : condPassed .al sysArm.cpsr = true ∧ (0x8008#16 : BitVec 16) ≠ 0#16 ∧
    (3#4 : RegNum) ≠ 15#4 ∧ (listedRegs 0x8008#16).head? = some 3#4 ∧
    (∀ x ∈ slotsOf false true 3#4 0x8008#16 sysArm,
      storeAdmitted sysArm .word x.2 (sysArm.readReg (sysArm.pc + 12#32) x.1)) ∧
    (irqArm 0#32).cpsr.mode ≠ .user ∧ (irqArm 0#32).cpsr.mode ≠ .sys ∧
    (∀ x ∈ slotsOf true true 3#4 0x8008#16 (irqArm 0#32),
      storeAdmitted (irqArm 0#32) .word x.2 ((irqArm 0#32).readRegMode .user ((irqArm 0#32).pc + 12#32) x.1)) :=
  ⟨by decide +kernel, by decide, by decide, by decide +kernel,
    storeAdmitted_slots (v := sysArm.readReg (sysArm.pc + 12#32)) (by decide +kernel), by decide +kernel, by decide +kernel,
    storeAdmitted_slots (v := (irqArm 0#32).readRegMode .user ((irqArm 0#32).pc + 12#32)) (by decide +kernel)⟩

theorem test_witness_LoadUserBank : condPassed .al (irqArm 0#32).cpsr = true ∧ (0x6001#16 : BitVec 16) ≠ 0#16 ∧
    (3#4 : RegNum) ≠ 15#4 ∧ (0x6001#16 : BitVec 16).getLsbD 15 = false ∧ (irqArm 0#32).cpsr.mode ≠ .user ∧
    (irqArm 0#32).cpsr.mode ≠ .sys ∧ ∀ x ∈ slotsOf false true 3#4 0x6001#16 (irqArm 0#32), loadAdmitted .word x.2 :=
  ⟨by decide +kernel, by decide, by decide, by decide, by decide +kernel, by decide +kernel,
    loadAdmitted_slots (by decide +kernel)⟩

theorem test_witness_BlockTransfersRefused : condPassed .al sysArm.cpsr = true ∧ (0x000A#16 : BitVec 16) ≠ 0#16 ∧
    (3#4 : RegNum) ≠ 15#4 ∧ (0x000A#16 : BitVec 16).getLsbD (3#4 : RegNum).toNat = true ∧
    (listedRegs 0x000A#16).head? ≠ some 3#4 ∧ (0x8008#16 : BitVec 16).getLsbD 15 = true ∧
    sysArm.cpsr.mode = .sys ∧ userArm.cpsr.mode = .user ∧ (irqArm 0#32).cpsr.mode ≠ .user ∧
    (irqArm 0#32).cpsr.mode ≠ .sys := by decide +kernel

/-- A block in cartridge SRAM: r15 among the registers, the base the lowest listed one, and in IRQ mode. -/
theorem test_witness_BlockTransfersRefused_sram : condPassed .al sramArm.cpsr = true ∧
    (∃ x ∈ slotsOf false true 3#4 0x8001#16 sramArm, WideSram .word x.2) ∧ noListedBase true 3#4 0x8001#16 ∧
    (0x8001#16 : BitVec 16).getLsbD 15 = true ∧ StopsAtSram sramArm (slotsOf false true 3#4 0x8008#16 sramArm) ∧
    listedBaseFirst true 3#4 0x8008#16 ∧ condPassed .al sramIrq.cpsr = true ∧ sramIrq.cpsr.mode ≠ .user ∧
    sramIrq.cpsr.mode ≠ .sys ∧ StopsAtSram sramIrq (slotsOf false true 3#4 0x8008#16 sramIrq) :=
  ⟨by decide +kernel, ⟨(15#4, 0x0E000004#32), by decide +kernel, by unfold WideSram; decide +kernel⟩,
    fun _ => by decide, by decide,
    stopsAtSram_of (3#4, 0x0E000000#32) ⟨by decide +kernel, by unfold WideSram; decide +kernel⟩,
    fun _ _ => by decide +kernel, by decide +kernel, by decide +kernel, by decide +kernel,
    stopsAtSram_of (3#4, 0x0E000000#32) ⟨by decide +kernel, by unfold WideSram; decide +kernel⟩⟩

theorem test_witness_RegisterBanks : (14#4 : RegNum) ≠ 15#4 ∧ sharedBank .user .sys 14#4 = true ∧
    sharedBank .user .fiq 8#4 = false ∧ sharedBank .user .irq 12#4 = true ∧ sharedBank .user .fiq 7#4 = true := by decide

theorem test_witness_ConditionCodes : encode (.armB .ne 0#24) = .arm 0x1A000000#32 ∧
    condPassed (condOf (.armB .ne 0#24)) sysArm.cpsr = false ∧
    encode (.armSwi .nv 5#24) = .arm 0xFF000005#32 ∧ condPassed (condOf (.armSwi .nv 5#24)) sysArm.cpsr = false := by
  decide +kernel

/-- Values with bits 1 and 0 equal to 00, 01 and 10. -/
theorem test_witness_ArmBranches : condPassed .al sysArm.cpsr = true ∧ (sysArm.armReg 1#4).toNat % 4 = 0 ∧
    (sysArm.armReg 2#4).toNat % 4 = 2 ∧ (sysArm.armReg 4#4).toNat % 4 = 1 := by decide +kernel

theorem test_witness_ThumbBranches : sysThumb.pc.toNat % 2 = 0 ∧ sysThumb.cpsr.t = true ∧
    (∃ x ∈ thumbConditionals, condPassed x.1 sysThumb.cpsr = true) ∧
    (∃ x ∈ thumbConditionals, condPassed x.1 sysThumb.cpsr = false) ∧
    (sysThumb.thumbReg 2#4).toNat % 4 = 2 ∧ (sysThumb.thumbReg 1#4).toNat % 4 = 1 :=
  ⟨by decide +kernel, by decide +kernel, ⟨(.ne, Instr.thumbBne), by simp [thumbConditionals], by decide +kernel⟩,
    ⟨(.eq, Instr.thumbBeq), by simp [thumbConditionals], by decide +kernel⟩, by decide +kernel, by decide +kernel⟩

theorem test_witness_SoftwareExceptions : sysArm.cpsr.t = false ∧ condPassed .al sysArm.cpsr = true ∧
    ArmUndefined .al (.armUndefA14 .al 0#20 0#4) ∧ sysThumb.cpsr.t = true ∧
    ThumbUndefined (.thumbUndefMisc 0xE#4 0#8) :=
  ⟨by decide +kernel, by decide +kernel, .a14 0#20 0#4, by decide +kernel, .misc 0xE#4 0#8⟩

/-- IME set and an enabled request pending, I clear; ARM state with an empty schedule, Thumb state with a CPU turn. -/
def irqPendingArm : State := granule 0x208 1#16 (granule 0x202 0x2000#16 (granule 0x200 0x2000#16 sysArm))

def irqPendingThumb : State :=
  { granule 0x208 1#16 (granule 0x202 1#16 (granule 0x200 1#16 sysThumb)) with schedule := [.cpu] }

theorem test_witness_IrqEntry : CpuTurn irqPendingArm irqPendingArm ∧ IrqWanted irqPendingArm ∧
    CpuTurn irqPendingThumb { irqPendingThumb with schedule := [] } ∧
    IrqWanted { irqPendingThumb with schedule := [] } ∧ irqPendingThumb.cpsr.t = true :=
  ⟨.inl ⟨rfl, rfl⟩, ⟨by decide +kernel, by decide +kernel, by decide +kernel⟩, .inr ⟨[], rfl, rfl⟩,
    ⟨by decide +kernel, by decide +kernel, by decide +kernel⟩, by decide +kernel⟩

/-- SWI from System mode in ARM state, and an IRQ in ARM state, each with a handler that does nothing. -/
theorem test_witness_ExceptionRoundTrip :
    (∃ t, RaisesHere (.armSwi .al 0#24) sysArm ∧ sysArm.pcAligned ∧ exec (.armSwi .al 0#24) sysArm = .next t ∧
      LeftAsEntered t t) ∧
    ∃ t, CpuTurn irqPendingArm irqPendingArm ∧ IrqWanted irqPendingArm ∧ irqPendingArm.pcAligned ∧
      step irqPendingArm = .next t ∧ LeftAsEntered t t ∧ irqPendingArm.cpsr.t = false :=
  ⟨⟨_, .inl ⟨.al, by decide +kernel, by decide +kernel, .inl ⟨0#24, rfl⟩⟩, by unfold State.pcAligned; decide +kernel, rfl,
      rfl, rfl, rfl⟩,
    _, .inl ⟨rfl, rfl⟩, ⟨by decide +kernel, by decide +kernel, by decide +kernel⟩,
      by unfold State.pcAligned; decide +kernel, rfl, ⟨rfl, rfl, rfl⟩, by decide +kernel⟩

theorem test_witness_ThumbLogical : (1#3 : LowReg) = 1#3 ∧ (1#3 : LowReg) ≠ 2#3 := by decide

/-- Two low registers; one high; r15 as the destination. -/
theorem test_witness_ThumbHighRegisters : (7#4 : RegNum).toNat < 8 ∧ 8 ≤ (8#4 : RegNum).toNat ∧
    8 ≤ (15#4 : RegNum).toNat := by decide

theorem test_witness_ThumbLoads : ThumbLoadForm sysThumb 0#3 (.thumbLdshReg 0#3 4#3 0#3) .half true
      (sysThumb.low 4#3 + sysThumb.low 0#3) ∧ (sysThumb.low 4#3 + sysThumb.low 0#3).toNat % 2 = 1 ∧
    ThumbLoadForm sysThumb 0#3 (.thumbLdrhImm 31#5 3#3 0#3) .half false
      (sysThumb.low 3#3 + BitVec.ofNat 32 (2 * (31#5 : BitVec 5).toNat)) ∧
    (sysThumb.low 3#3 + BitVec.ofNat 32 (2 * (31#5 : BitVec 5).toNat)).toNat % 2 = 0 ∧
    loadAdmitted .half (sysThumb.low 3#3 + BitVec.ofNat 32 (2 * (31#5 : BitVec 5).toNat)) ∧
    WideSram .half (sramThumb.low 3#3 + BitVec.ofNat 32 (2 * (31#5 : BitVec 5).toNat)) ∧
    (sramThumb.low 3#3 + BitVec.ofNat 32 (2 * (31#5 : BitVec 5).toNat)).toNat % 2 = 0 :=
  ⟨.signedHalf 0#3 4#3, by decide +kernel, .halfImm 31#5 3#3, by decide +kernel, loadAdmitted_of (by decide +kernel),
    by unfold WideSram; decide +kernel, by decide +kernel⟩

theorem test_witness_ThumbStores : ThumbStoreForm sysThumb 0#3 (.thumbStrhReg 0#3 4#3 0#3) .half
      (sysThumb.low 4#3 + sysThumb.low 0#3) ∧ (sysThumb.low 4#3 + sysThumb.low 0#3).toNat % 2 = 1 ∧
    ThumbStoreForm sysThumb 0#3 (.thumbStrSp 0#3 255#8) .word
      (sysThumb.thumbReg 13#4 + BitVec.ofNat 32 (4 * (255#8 : BitVec 8).toNat)) ∧
    storeAdmitted sysThumb .word (sysThumb.thumbReg 13#4 + BitVec.ofNat 32 (4 * (255#8 : BitVec 8).toNat))
      (sysThumb.low 0#3) ∧
    WideSram .word (sramThumb.thumbReg 13#4 + BitVec.ofNat 32 (4 * (255#8 : BitVec 8).toNat)) :=
  ⟨.halfReg 0#3 4#3, by decide +kernel, .sp 255#8, ⟨by decide +kernel, by decide +kernel⟩,
    by unfold WideSram; decide +kernel⟩

/-- PUSH of r0 and r14; STMIA with a listed base that is not the lowest and with one that is. -/
theorem test_witness_ThumbStoreMultiple :
    (∀ x ∈ wordSlots (sysThumb.thumbReg 13#4 - 8#32) (stackList 1#8 14#4 true),
      storeAdmitted sysThumb .word x.2 (sysThumb.thumbReg x.1)) ∧
    (stackList 1#8 14#4 true).length = 2 ∧
    ((0x0A#8 : BitVec 8).getLsbD (3#3 : LowReg).toNat = true ∧
      ∃ k < (3#3 : LowReg).toNat, (0x0A#8 : BitVec 8).getLsbD k = true) ∧
    ¬((0x18#8 : BitVec 8).getLsbD (3#3 : LowReg).toNat = true ∧
      ∃ k < (3#3 : LowReg).toNat, (0x18#8 : BitVec 8).getLsbD k = true) ∧
    (∀ x ∈ wordSlots (sysThumb.low 3#3) (stackList 0x18#8 15#4 false),
      storeAdmitted sysThumb .word x.2 (sysThumb.thumbReg x.1)) ∧
    StopsAtSram sramThumb (wordSlots (sramThumb.thumbReg 13#4 - 8#32) (stackList 1#8 14#4 true)) ∧
    StopsAtSram sramThumb (wordSlots (sramThumb.low 3#3) (stackList 0x18#8 15#4 false)) :=
  ⟨storeAdmitted_slots (v := sysThumb.thumbReg) (by decide +kernel), by decide +kernel,
    ⟨by decide, 1, by decide, by decide⟩, by decide, storeAdmitted_slots (v := sysThumb.thumbReg) (by decide +kernel),
    stopsAtSram_of (0#4, 0x0E0000F8#32) ⟨by decide +kernel, by unfold WideSram; decide +kernel⟩,
    stopsAtSram_of (3#4, 0x0E000000#32) ⟨by decide +kernel, by unfold WideSram; decide +kernel⟩⟩

/-- POP of r0 and r15; LDMIA with the base not listed. -/
theorem test_witness_ThumbLoadMultiple :
    (∀ x ∈ wordSlots (sysThumb.thumbReg 13#4) (stackList 1#8 15#4 true), loadAdmitted .word x.2) ∧
    (∀ x ∈ wordSlots (sysThumb.low 3#3) (stackList 0x11#8 15#4 false), loadAdmitted .word x.2) ∧
    (0x11#8 : BitVec 8).getLsbD (3#3 : LowReg).toNat = false ∧
    (∃ x ∈ wordSlots (sramThumb.thumbReg 13#4) (stackList 1#8 15#4 true), WideSram .word x.2) ∧
    ∃ x ∈ wordSlots (sramThumb.low 3#3) (stackList 0x11#8 15#4 false), WideSram .word x.2 :=
  ⟨loadAdmitted_slots (by decide +kernel), loadAdmitted_slots (by decide +kernel), by decide,
    ⟨(15#4, 0x0E000104#32), by decide +kernel, by unfold WideSram; decide +kernel⟩,
    ⟨(4#4, 0x0E000004#32), by decide +kernel, by unfold WideSram; decide +kernel⟩⟩

theorem test_witness_DecodeOfEncode : WellFormed (.armAdd .al true 2#4 1#4 (plainReg 3#4)) = true ∧
    WellFormed (.thumbUndefMisc 0xE#4 0xFF#8) = true := by decide

/-- ADDS r1, r2, r3 at the PC; a CPU turn; the same word under the hazard. -/
def fetchState : State := withWords sysArm [(0x08000000#32, 0xE0921003#32)]

theorem test_witness_StepRunsDecoded :
    Fetches fetchState fetchState (.armAdd .al true 2#4 1#4 (plainReg 3#4)) ∧
    ¬HazardMet fetchState (.armAdd .al true 2#4 1#4 (plainReg 3#4)) :=
  ⟨⟨.inl ⟨rfl, rfl⟩, fun h => absurd h.2.1 (by decide +kernel), .inr (.inr (by decide +kernel)), by decide +kernel⟩,
    fun h => absurd h.1 (by decide +kernel)⟩

/-- MOV r0, r13 in IRQ mode right after a user-bank LDM. -/
def hazardState : State :=
  { withWords (irqArm 0x10#32) [(0x08000000#32, 0xE1A0000D#32)] with userBankHazard := true }

/-- A PC in the I/O page and one in SRAM; the hazard met. -/
theorem test_witness_StepStops :
    (CpuTurn { sysArm with pc := 0x04000000#32 } { sysArm with pc := 0x04000000#32 } ∧
      ¬Fetchable 0x04000000#32 ∧ ¬Fetchable 0x00004000#32 ∧ ¬Fetchable 0x0E000000#32) ∧
    Fetches hazardState hazardState (.armMov .al false 0#4 0#4 (plainReg 13#4)) ∧
    HazardMet hazardState (.armMov .al false 0#4 0#4 (plainReg 13#4)) :=
  ⟨⟨.inl ⟨rfl, rfl⟩, by unfold Fetchable; decide, by unfold Fetchable; decide, by unfold Fetchable; decide⟩,
    ⟨.inl ⟨rfl, rfl⟩, fun h => absurd h.2.1 (by decide +kernel), .inr (.inr (by decide +kernel)), by decide +kernel⟩,
    by decide +kernel, by decide +kernel, 13#4, by decide +kernel, by decide +kernel, by decide, by decide +kernel⟩

theorem fetchState_spsrs : ∀ m v, fetchState.spsrs.get? m = some v → reservedStatusBits v = 0#20 := by
  intro m v h
  have e : fetchState.spsrs = State.reset.spsrs := by decide +kernel
  rw [e] at h
  cases m <;> first | cases h; decide | cases h

/-- The state that fetches ADDS has the invariant. -/
theorem fetchState_inv : fetchState.Inv where
  memory := by decide +kernel
  pc := by unfold State.pcAligned; decide +kernel
  spsrs := fetchState_spsrs
  io := by intro r; cases r <;> decide +kernel
  vcount := by decide +kernel
  objMeta := by decide +kernel
  rendered := fun h => by cases h

/-- An instruction of each Undefined class, which accesses no register. -/
theorem test_witness_AccessedRegisters : ArmUndefined .ne (.armLdc .ne true true false false 14#4 13#4 5#4 0#8) ∧
    ThumbUndefined (.thumbUndefLong 0#11) := ⟨.ldc true true false false 14#4 13#4 5#4 0#8, .long 0#11⟩

theorem test_witness_StepKeepsInvariant : fetchState.Inv ∧ ∃ t, step fetchState = .next t :=
  ⟨fetchState_inv, _, rfl⟩

/-- SWI in User mode leaves it; MOV in User mode does not. -/
theorem test_witness_UserMode : userArm.cpsr.mode = .user ∧
    after (run 32 0xEF000000 userArm) (fun t => t.cpsr.mode == .svc) = true ∧
    after (run 32 0xE1A00001 userArm) (fun t => t.cpsr.mode == .user) = true ∧
    ∀ j : RegNum, physReg .user j ≠ some .r13irq := by decide +kernel

/-- A reset the environment asserts, in a state with the invariant; the RAM word listed before is forgotten. -/
theorem test_witness_ResetValues : ({ fetchState with schedule := [.env .reset] } : State).Inv ∧
    after (step { irqArm 0x10#32 with schedule := [.env .reset] }) (fun t => t.pc == 0#32 && t.cpsr.mode == .svc) = true ∧
    after (step { withWords sysArm [(0x02000000#32, 1#32)] with schedule := [.env .reset] })
      (fun t => t.mem.length == 0) = true :=
  ⟨⟨fetchState_inv.memory, fetchState_inv.pc, fetchState_inv.spsrs, fetchState_inv.io, fetchState_inv.vcount,
    fetchState_inv.objMeta, fetchState_inv.rendered⟩, by decide +kernel, by decide +kernel⟩

/-- The ends of EWRAM and a mirror of its start; the folded end of VRAM. -/
theorem test_witness_MemoryMirrors :
    ((0x02000000 : Nat) ≤ (0x02000000#32 : Word).toNat ∧ (0x02FC0000#32 : Word).toNat < 0x02000000 + 0x01000000 ∧
      (0x02000000#32 : Word).toNat % 0x40000 = (0x02FC0000#32 : Word).toNat % 0x40000) ∧
    (0x06000000 : Nat) ≤ (0x06018000#32 : Word).toNat ∧ (0x06018000#32 : Word).toNat < 0x07000000 ∧
      0x18000 ≤ (0x06018000#32 : Word).toNat % 0x20000 := by decide

/-- An offset of the environment, an unused one and the last word of the page; a byte merged into each half. -/
theorem test_witness_IoPage : (0x60 % 2 = 0 ∧ 0x60 < 0x400 ∧ environmentOwned 0x60 = true) ∧
    (0x4E % 2 = 0 ∧ 0x4E < 0x400 ∧ environmentOwned 0x4E = false ∧ ∀ r : IoReg, r.offset ≠ 0x4E) ∧
    0x3FC % 4 = 0 ∧ 0x3FC < 0x400 ∧ mergedHalf 0x1234 0xAB#32 0 = 0x12AB ∧ mergedHalf 0x1234 0xAB#32 1 = 0xAB34 :=
  ⟨by decide +kernel, ⟨by decide, by decide, by decide +kernel, fun r => by cases r <;> decide⟩, by decide, by decide,
    by decide, by decide⟩

/-- Each kind of store into the next slot or the one after it, in EWRAM. -/
theorem test_witness_PrefetchWindow :
    (condPassed .al runInRam.cpsr = true ∧ transferAdmitted preWriteback 3#4 5#4 (.imm 8#12) false ∧
      ¬WideSram .word (transferAddress preWriteback 3#4 (.imm 8#12) runInRam) ∧
      MeetsWindow runInRam .word (transferAddress preWriteback 3#4 (.imm 8#12) runInRam) ∧
      MeetsWindow runInRam .byte (transferAddress preWriteback 3#4 (.imm 11#12) runInRam)) ∧
    (halfwordAdmitted preWriteback 3#4 5#4 (.imm 0#4 4#4) false ∧
      (halfwordAddress preWriteback 3#4 (.imm 0#4 4#4) runInRam).toNat % 2 = 0 ∧
      ¬WideSram .half (halfwordAddress preWriteback 3#4 (.imm 0#4 4#4) runInRam) ∧
      MeetsWindow runInRam .half (halfwordAddress preWriteback 3#4 (.imm 0#4 4#4) runInRam)) ∧
    (¬((5#4 : RegNum) = 15#4 ∨ (4#4 : RegNum) = 15#4 ∨ (1#4 : RegNum) = 15#4 ∨ (4#4 : RegNum) = 1#4 ∨
        (4#4 : RegNum) = 5#4) ∧ ¬WideSram .word (runInRam.armReg 4#4) ∧
      MeetsWindow runInRam .word (runInRam.armReg 4#4) ∧ MeetsWindow runInRam .byte (runInRam.armReg 4#4)) ∧
    (StopsAtWindow runInRam (slotsOf false true 4#4 0x8010#16 runInRam) ∧ listedBaseFirst true 4#4 0x8010#16 ∧
      condPassed .al runInRamIrq.cpsr = true ∧ runInRamIrq.cpsr.mode ≠ .user ∧ runInRamIrq.cpsr.mode ≠ .sys ∧
      StopsAtWindow runInRamIrq (slotsOf false true 3#4 0x8010#16 runInRamIrq)) ∧
    (ThumbStoreForm runInRamThumb 0#3 (.thumbStrhImm 2#5 3#3 0#3) .half
        (runInRamThumb.low 3#3 + BitVec.ofNat 32 (2 * (2#5 : BitVec 5).toNat)) ∧
      (runInRamThumb.low 3#3 + BitVec.ofNat 32 (2 * (2#5 : BitVec 5).toNat)).toNat % 2 = 0 ∧
      ¬WideSram .half (runInRamThumb.low 3#3 + BitVec.ofNat 32 (2 * (2#5 : BitVec 5).toNat)) ∧
      MeetsWindow runInRamThumb .half (runInRamThumb.low 3#3 + BitVec.ofNat 32 (2 * (2#5 : BitVec 5).toNat))) ∧
    (StopsAtWindow runInRamThumb (wordSlots (runInRamThumb.thumbReg 13#4 - BitVec.ofNat 32
        (4 * (stackList 1#8 14#4 false).length)) (stackList 1#8 14#4 false))) ∧
    (¬((0x18#8 : BitVec 8).getLsbD (4#3 : LowReg).toNat = true ∧
        ∃ k < (4#3 : LowReg).toNat, (0x10#8 : BitVec 8).getLsbD k = true) ∧
      StopsAtWindow runInRamThumb (wordSlots (runInRamThumb.low 4#3) (stackList 0x10#8 15#4 false))) :=
  ⟨⟨by decide +kernel, ⟨rfl, fun _ => ⟨by decide, fun h => by cases h⟩⟩, by unfold WideSram; decide +kernel,
      storesInto_of 4 (by decide +kernel), storesInto_of 7 (by decide +kernel)⟩,
    ⟨⟨rfl, .inl rfl, by decide, fun _ => ⟨by decide, fun h => by cases h⟩⟩, by decide +kernel,
      by unfold WideSram; decide +kernel, storesInto_of 0 (by decide +kernel)⟩,
    ⟨by decide, by unfold WideSram; decide +kernel, storesInto_of 4 (by decide +kernel),
      storesInto_of 4 (by decide +kernel)⟩,
    ⟨stopsAtWindow_of (4#4, 0x02000008#32) (by decide +kernel) (by unfold WideSram; decide)
        (storesInto_of 4 (by decide +kernel)), fun _ _ => by decide +kernel, by decide +kernel, by decide +kernel,
      by decide +kernel, stopsAtWindow_of (4#4, 0x02000008#32) (by decide +kernel) (by unfold WideSram; decide)
        (storesInto_of 4 (by decide +kernel))⟩,
    ⟨.halfImm 2#5 3#3, by decide +kernel, by unfold WideSram; decide +kernel, storesInto_of 2 (by decide +kernel)⟩,
    stopsAtWindow_of (0#4, 0x02000004#32) (by decide +kernel) (by unfold WideSram; decide)
      (storesInto_of 2 (by decide +kernel)),
    by decide, stopsAtWindow_of (4#4, 0x02000004#32) (by decide +kernel) (by unfold WideSram; decide)
      (storesInto_of 2 (by decide +kernel))⟩

/-- Each turn of the environment; a DMA transfer of a read and two writes of one word, the later one last; one refused for
SRAM and one for the next two instructions, each after an admitted access. -/
theorem test_witness_EnvironmentTurns :
    after (step { sysArm with schedule := [.env (.requestIrq 0xFFFF#16)] }) (fun t => t.ioRaw .if_ == 0x3FFF#16) = true ∧
    after (step { sysArm with schedule := [.env (.setVcount 227)] }) (fun t => t.ioRaw .vcount == 227#16) = true ∧
    after (step { sysArm with schedule := [.env (.setDispstatFlags true false true)] })
      (fun t => t.ioRaw .dispstat == 5#16) = true ∧
    after (step { sysArm with schedule := [.env (.setKeyinput 0xFFFF#16)] })
      (fun t => t.ioRaw .keyinput == 0x03FF#16) = true ∧
    after (step { sysArm with schedule := [.env (.dma [.read .word 0x02000000#32, .write .word 0x02000000#32 1#32,
        .write .word 0x02000000#32 0x12345678#32])] }) (fun t => t.readByte 0x02000003#32 == 0x12#8) = true ∧
    stops (step { sysArm with schedule := [.env (.dma [.write .word 0x02000000#32 1#32, .read .half 0x0E000000#32])] })
      .sramWideAccess = true ∧
    stops (step { runInRam with schedule := [.env (.dma [.read .word 0x02000000#32, .write .byte 0x02000007#32 1#32])] })
      .prefetchWindowWrite = true := by decide +kernel

/-- The hypotheses of the DMA clauses: a write that is admitted, and the two that are not. -/
theorem test_witness_EnvironmentTurns_dma : DmaAdmitted sysArm (.write .word 0x02000000#32 1#32) ∧
    DmaAdmitted runInRam (.read .word 0x02000000#32) ∧ WideSram .half 0x0E000000#32 ∧
    ¬WideSram .byte 0x02000007#32 ∧ StoresInto runInRam.cpsr.t runInRam.pc .byte 0x02000007#32 := by
  refine ⟨⟨by unfold WideSram; decide, ?_⟩, ?_, by unfold WideSram; decide, by unfold WideSram; decide,
    storesInto_of 7 (by decide +kernel)⟩
  · rintro ⟨-, b, hb, k, hk, h⟩
    have hb : b ∈ [0x02000000#32, 0x02000001#32, 0x02000002#32, 0x02000003#32] := hb
    have hk : k < 8 := hk
    have hp : sysArm.pc = 0x08000000#32 := by decide +kernel
    rw [hp] at h
    revert h
    simp only [List.mem_cons, List.not_mem_nil, or_false] at hb
    rcases hb with rfl | rfl | rfl | rfl <;> interval_cases k <;> decide
  · show ¬WideSram .word 0x02000000#32
    unfold WideSram; decide

/-- A line of the frame driver: CPU steps, the render, the environment, the next line; out of order a render is refused,
and so is the end of a visible line that is not rendered. -/
theorem test_witness_FrameOrder :
    after (step { sysArm with schedule := [.render 0] }) (fun t => t.phase == .effects && t.line == 0) = true ∧
    stops (step { sysArm with schedule := [.render 1] }) .frameOrder = true ∧
    after (step { sysArm with schedule := [.env (.setVcount 1)], phase := .effects }) (fun t => t.phase == .effects) = true ∧
    stops (step { sysArm with schedule := [.render 0], phase := .acted }) .frameOrder = true ∧
    (CpuTurn { fetchState with phase := .effects, line := 227 }
        (openedTurn { fetchState with phase := .effects, line := 227 } []) ∧
      after (step { fetchState with phase := .effects, line := 227 }) (fun t => t.phase == .budget && t.line == 0) = true) ∧
    stops (step { sysArm with schedule := [.endLine] }) .frameOrder = true ∧
    after (step { sysArm with schedule := [.endLine], line := 160 }) (fun t => t.line == 161) = true :=
  ⟨by decide +kernel, by decide +kernel, by decide +kernel, by decide +kernel,
    ⟨.inl ⟨rfl, rfl⟩, by decide +kernel⟩, by decide +kernel, by decide +kernel⟩

/-- Line 0 to render; OAM entry 0 of given attributes and the other entries not displayed; tile 0 of the sprites all of
index 1, which is red. -/
def withSprite (dispcnt attr0 attr1 attr2 : Nat) : State :=
  { granule 0 (BitVec.ofNat 16 dispcnt) sysArm with
    schedule := [.render 0]
    mem := [(0x05000202, 0x1F#8), (0x05000203, 0#8)] ++ (List.range 32).map (fun k => (0x06010000 + k, 0x11#8)) ++
      [attr0 % 256, attr0 / 256, attr1 % 256, attr1 / 256, attr2 % 256, attr2 / 256].zipIdx.map
        (fun x => (0x07000000 + x.2, BitVec.ofNat 8 x.1)) ++
      (List.range 127).flatMap fun i =>
        [(0x07000008 + 8 * i, 0#8), (0x07000009 + 8 * i, 2#8)] }

/-- Modes 5 and 6; a displayed sprite of SHAPE 3, and one of MODE 3 on line 0 that is not displayed. -/
theorem test_witness_RenderTurn :
    6 ≤ field (ioValue (granule 0 6#16 sysArm) .dispcnt) 0 3 ∧
    (field (ioValue (granule 0 5#16 sysArm) .dispcnt) 0 3 < 6 ∧
      field (ioValue (granule 0 5#16 sysArm) .dispcnt) 12 1 ≠ 1) ∧
    field (ioValue (withSprite 0x1000 0xC000 0 0) .dispcnt) 12 1 = 1 ∧
    SpriteProhibited (withSprite 0x1000 0xC000 0 0) 0 159 ∧ SpriteProhibited (withSprite 0x1000 0x0E00 0 0) 0 7 ∧
    ¬SpriteProhibited (withSprite 0x1000 0x0E00 0 0) 0 8 ∧ sysArm.line.val = 0 ∧ sysArm.phase = .budget := by
  unfold SpriteProhibited SpriteShown SpriteCovers
  decide +kernel

/-- A step that renders line 0, and the kinds of layer. -/
theorem test_witness_BackgroundLines :
    after (step { granule 0 0x0402#16 sysArm with schedule := [.render 0] })
      (fun t => t.bgPresent[2] && !t.bgPresent[3]) = true ∧
    IsText 1 1 ∧ IsAffine 1 2 ∧ IsAffine 2 3 ∧ IsBitmap 5 2 ∧ ¬(IsText 3 3 ∨ IsAffine 3 3 ∨ IsBitmap 3 3) := by
  refine ⟨by decide +kernel, ?_⟩
  unfold IsText IsAffine IsBitmap
  decide

/-- No sprite has SHAPE 3 or MODE 3, so that no line is refused. -/
theorem objRefused_of {s : State} (y : Nat)
    (h : ((List.range 128).all fun i => (s.objAttr i).shape != 3 && (s.objAttr i).mode != 3) = true) :
    s.objRefused y = false := by
  have h := List.all_eq_true.1 h
  unfold State.objRefused
  rw [Bool.and_eq_false_iff, List.any_eq_false]
  refine .inr fun i hi => ?_
  have h := h i hi
  rw [Bool.and_eq_true, bne_iff_ne, bne_iff_ne] at h
  simp [ObjAttr.prohibited, h.1, h.2]

/-- A step that renders line 0 with one 8 by 8 sprite, which has red pixels there. -/
theorem test_witness_SpriteLines : (withSprite 0x1000 0 0 0x0400).schedule = [.render 0] ∧
    (∃ t, step (withSprite 0x1000 0 0 0x0400) = .next t) ∧
    field (ioValue (withSprite 0x1000 0 0 0x0400) .dispcnt) 12 1 = 1 ∧
    ¬WindowSprite (withSprite 0x1000 0 0 0x0400) 0 ∧ WindowSprite (withSprite 0x1000 0x0800 0 0) 0 ∧
    SpritePixel (withSprite 0x1000 0 0 0x0400) 0 7 0 0x801F#16 := by
  refine ⟨rfl, ?_, by decide +kernel, by unfold WindowSprite; decide +kernel, by unfold WindowSprite; decide +kernel, ?_⟩
  · rw [step_render_next _ 0 [] rfl rfl rfl, if_neg (by decide +kernel), objRefused_of _ (by decide +kernel)]
    exact ⟨_, rfl⟩
  · refine ⟨by unfold SpriteShown; decide +kernel, by unfold SpriteCovers; decide +kernel, by decide +kernel,
      by decide +kernel, 7, 0, ⟨fun h => absurd h (by decide +kernel), fun _ => by decide +kernel⟩,
      by unfold inRectangle; decide +kernel, by decide +kernel, by decide⟩

/-- Forced blank; every layer off; a pixel in each window and in none; alpha, brighten and darken of layer 0 above layer
5, and with no target drawn. -/
theorem test_witness_Composition :
    ((granule 0 0x80#16 sysArm).ioRaw .dispcnt).getLsbD 7 = true ∧
    ((sysArm.ioRaw .dispcnt).getLsbD 7 = false ∧ (∀ k < 13, 8 ≤ k → (sysArm.ioRaw .dispcnt).getLsbD k = false) ∧
      (sysArm.ioRaw .bldcnt).extractLsb' 6 2 = 0#2) ∧
    [0x3F41#16, 0x3F81#16, 0x3FC1#16].all (fun v => (v.getLsbD 0) && (v.getLsbD 13) && v.extractLsb' 6 2 != 0#2 &&
      (granule 0x50 v sysArm).ioRaw .bldcnt == v) = true := by decide +kernel

/-- WIN0 over columns 8 to 15 of lines 0 to 3: column 8 is inside, column 16 is not. -/
def windowed : State := granule 0x44 0x0004#16 (granule 0x40 0x0810#16 (granule 0 0x2000#16 sysArm))

theorem test_witness_Composition_windows : InWindow windowed 13 .win0h .win0v 8 0 ∧
    ¬InWindow windowed 13 .win0h .win0v 16 0 ∧ field (ioValue windowed .dispcnt) 13 3 ≠ 0 ∧
    ¬InWindow windowed 14 .win1h .win1v 16 0 := by
  refine ⟨⟨by decide +kernel, .inl (by decide +kernel), .inl (by decide +kernel)⟩, ?_, by decide +kernel, ?_⟩
  · rintro ⟨-, h | h, -⟩
    · exact absurd h.2.2 (by decide +kernel)
    · exact absurd h.1 (by decide +kernel)
  · rintro ⟨h, -⟩; exact absurd h (by decide +kernel)

/-- A record of BG0 above the backdrop, one of BG0 alone, and one with a semi-transparent sprite on top. -/
def topRecord (layer : Nat) (semi : Bool) (under : Option (Half × Nat)) : BlendRecord :=
  { top := 0x801F#16, topLayer := layer, topSemi := semi, under := under }

theorem test_witness_Composition_blend : TargetUnder (granule 0x50 0x2041#16 sysArm) (topRecord 0 false (some (0#16, 5))) ∧
    ¬TargetUnder (granule 0x50 0x2041#16 sysArm) (topRecord 0 false none) ∧ Forced (topRecord 4 true none) ∧
    ¬Forced (topRecord 0 false none) ∧ field (ioValue (granule 0x50 0x2041#16 sysArm) .bldcnt) 6 2 = 1 ∧
    field (ioValue (granule 0x50 0x2041#16 sysArm) .bldcnt) 0 1 = 1 := by
  refine ⟨⟨0#16, 5, rfl, by decide +kernel⟩, ?_, ⟨rfl, rfl⟩, fun h => absurd h.1 (by decide), by decide +kernel,
    by decide +kernel⟩
  rintro ⟨_, _, h, -⟩; cases h

end Sys2Proof.Tests
end

section
/-! PROOFS. The prefetch window by addresses (70_reset_and_hazards R941) and the environment's turns (00_scope R7). -/

namespace Sys2Proof.Proofs

open Sys2Proof.Machine Sys2Proof.Statements

/-! ### Which stores meet the next two instructions (70_reset_and_hazards R941) -/

/-- A store that lands counts one byte at each stored address, under its key; any other store counts none. -/
theorem mem_storedKeys_iff (w : Width) (a v : Word) (k : Nat) :
    k ∈ storedKeys w a v ↔ StoreLands w a ∧ ∃ b ∈ storedAddresses w a, k = keyOf b := by
  have hspan := cellsIn_keys w (alignAddr w a) v (alignAddr_idem w a)
  have hpair := cellsIn_keys .half (alignAddr .half a) (replicateByte v) (alignAddr_idem .half a)
  rw [regionOf_alignAddr] at hspan hpair
  have lands {l : List Nat} {m : List Word} (h : l = m.map keyOf) : k ∈ l ↔ ∃ b ∈ m, k = keyOf b := by
    simp only [h, List.mem_map, eq_comm]
  simp only [storedKeys, storedCells, storedAddresses, StoreLands, regionOf_alignAddr]
  cases hr : regionOf a <;> rw [hr] at hspan hpair
  case ewram | iwram => cases w <;> simpa using lands hspan
  case palette | vram =>
    cases w
    case byte => simpa using lands hpair
    case half | word => simpa using lands hspan
  case io =>
    have hkeys : (List.range w.bytes).map (fun k => (alignAddr w a).toNat + k) =
        (cellsIn .io w (alignAddr w a) v).map fun c => c.1 := by cases w <;> rfl
    cases w <;> simpa using lands (hkeys.trans hspan)
  case oam =>
    cases w
    case byte => simp
    case half | word => simpa using lands hspan
  case sram =>
    cases w
    case byte => simpa using lands hspan
    case half | word => simp
  case bios | rom | unmapped => simp

/-- The window by addresses: a stored byte is a byte of the two slots, under any mirror. -/
theorem hitsWindow_iff (thumb : Bool) (start : Word) (w : Width) (a v : Word) :
    hitsWindow thumb start w a v = true ↔ StoresInto thumb start w a := by
  simp only [hitsWindow, windowKeys, StoresInto, List.any_eq_true, List.contains_iff_mem, List.mem_map, List.mem_range,
    mem_storedKeys_iff]
  constructor
  · rintro ⟨_, ⟨hl, b, hb, rfl⟩, k, hk, he⟩
    exact ⟨hl, b, hb, k, hk, he.symm⟩
  · rintro ⟨hl, b, hb, k, hk, he⟩
    exact ⟨_, ⟨hl, b, hb, rfl⟩, k, hk, he.symm⟩

theorem sramWide_iff_wideSram (w : Width) (a : Word) : sramWide w a = true ↔ WideSram w a := sramWide_iff w a

theorem sramWide_eq_false_iff (w : Width) (a : Word) : sramWide w a = false ↔ ¬ WideSram w a := by
  rw [← sramWide_iff_wideSram, Bool.not_eq_true]

theorem hitsWindow_eq_false_iff (thumb : Bool) (start : Word) (w : Width) (a v : Word) :
    hitsWindow thumb start w a v = false ↔ ¬ StoresInto thumb start w a := by
  rw [← hitsWindow_iff thumb start w a v, Bool.not_eq_true]

/-! ### Turns that set one granule (00_scope R7; 20_memory R188, R190) -/

theorem step_env_actedTurn (s : State) (a : EnvAction) (rest : List Turn) (h : s.schedule = .env a :: rest) :
    step s = outcome ((actedTurn s rest).envAction a) := step_env s a rest h

/-- An action that maps the stored value of one granule sets that granule and nothing else. -/
theorem setsGranule_of_envAction {a : EnvAction} {r : IoReg} (f : Half → Half)
    (h : ∀ s : State, s.envAction a = .ok (s.setIoRaw r (f (s.ioRaw r)))) :
    SetsGranule a r fun s => f (s.ioRaw r) := by
  intro s rest hs
  refine ⟨(actedTurn s rest).setIoRaw r (f (s.ioRaw r)), ?_, ioRaw_setIoRaw_same _ r _,
    fun q hq => ioRaw_setIoRaw_ne _ q r _ hq, rfl⟩
  rw [step_env_actedTurn s a rest hs, h]
  rfl

/-- The flags are bits 2..0 of DISPSTAT (20_memory R188). -/
theorem dispstatWithFlags_eq (old : Half) (vb hb vc : Bool) : dispstatWithFlags old vb hb vc =
    (old &&& 0xFFF8#16) ||| BitVec.ofNat 16 (vb.toNat + 2 * hb.toNat + 4 * vc.toNat) := by
  have hflags : BitVec.ofNat 16 (vb.toNat + 2 * hb.toNat + 4 * vc.toNat) =
      0#13 ++ BitVec.ofBool vc ++ BitVec.ofBool hb ++ BitVec.ofBool vb := by
    revert vb hb vc; decide
  rw [hflags, dispstatWithFlags]
  apply BitVec.eq_of_getLsbD_eq
  intro i hi
  simp only [BitVec.getLsbD_or, BitVec.getLsbD_and, BitVec.getLsbD_append, BitVec.getLsbD_extractLsb']
  interval_cases i <;> simp

/-! ### DMA transfers (00_scope R7 (d); 10_state R69) -/

theorem dmaAdmitted_iff (s : State) (op : DmaOp) : dmaAdmitted s.cpsr.t s.pc op ↔ DmaAdmitted s op := by
  cases op with
  | read w a => exact sramWide_eq_false_iff w a
  | write w a v => exact and_congr (sramWide_eq_false_iff w a) (hitsWindow_eq_false_iff s.cpsr.t s.pc w a v)

theorem dmaEffect_eq_dmaAccess : dmaEffect = State.dmaAccess := by
  funext s op
  cases op <;> rfl

theorem keptByDma_refl (s : State) : KeptByDma s s := by
  constructor
  case cycles => exact Nat.le_refl _
  all_goals rfl

theorem keptByDma_trans {s t u : State} (h : KeptByDma s t) (g : KeptByDma t u) : KeptByDma s u where
  regs := g.regs.trans h.regs
  cpsr := g.cpsr.trans h.cpsr
  spsrs := g.spsrs.trans h.spsrs
  pc := g.pc.trans h.pc
  userBankHazard := g.userBankHazard.trans h.userBankHazard
  bgLine := g.bgLine.trans h.bgLine
  bgPresent := g.bgPresent.trans h.bgPresent
  objLine := g.objLine.trans h.objLine
  objMeta := g.objMeta.trans h.objMeta
  frame := g.frame.trans h.frame
  line := g.line.trans h.line
  phase := g.phase.trans h.phase
  schedule := g.schedule.trans h.schedule
  powerOns := g.powerOns.trans h.powerOns
  cycles := h.cycles.trans g.cycles

/-- One access keeps what a transfer keeps and takes a draw: only the bus write may change memory or the I/O page. -/
theorem dmaEffect_kept (s : State) (op : DmaOp) :
    KeptByDma s (dmaEffect s op) ∧ (dmaEffect s op).draws = s.draws + 1 := by
  have counted (t : State) : KeptByDma t (accessCounted t) := by
    constructor
    case cycles => exact Nat.le_add_right _ _
    all_goals rfl
  cases op with
  | read w a => exact ⟨counted s, rfl⟩
  | write w a v =>
    obtain ⟨hregs, hcpsr, hpc, h⟩ := memWrite_keeps s w a v
    have written : KeptByDma s (s.memWrite w a v) :=
      { h with regs := hregs, cpsr := hcpsr, pc := hpc, cycles := h.cycles.ge }
    exact ⟨keptByDma_trans written (counted _), congrArg (· + 1) h.draws⟩

/-- A transfer takes one draw for each access. -/
theorem foldl_dmaEffect_kept (ops : List DmaOp) (s : State) :
    KeptByDma s (ops.foldl dmaEffect s) ∧ (ops.foldl dmaEffect s).draws = s.draws + ops.length := by
  induction ops generalizing s with
  | nil => exact ⟨keptByDma_refl s, rfl⟩
  | cons op ops ih =>
    obtain ⟨hk, hd⟩ := dmaEffect_kept s op
    obtain ⟨gk, gd⟩ := ih (dmaEffect s op)
    refine ⟨keptByDma_trans hk gk, ?_⟩
    rw [List.foldl_cons, gd, hd, List.length_cons]
    omega

section
variable {s : State} {rest : List Turn}

/-- Taking the turn leaves the PC and CPSR, by which an access is admitted. -/
theorem dmaAdmitted_actedTurn {ops : List DmaOp} (h : ∀ op ∈ ops, DmaAdmitted s op) :
    ∀ op ∈ ops, dmaAdmitted (actedTurn s rest).cpsr.t (actedTurn s rest).pc op :=
  fun op hop => (dmaAdmitted_iff s op).mpr (h op hop)

theorem step_dma_of_admitted {ops : List DmaOp} (hs : s.schedule = .env (.dma ops) :: rest)
    (h : ∀ op ∈ ops, DmaAdmitted s op) : step s = .next (ops.foldl dmaEffect (actedTurn s rest)) := by
  rw [step_env_actedTurn s _ rest hs, State.envAction, dma_of_admitted _ ops (dmaAdmitted_actedTurn h),
    dmaEffect_eq_dmaAccess, outcome_ok]

theorem step_dma_wide {pre post : List DmaOp} {op : DmaOp} {w : Width} {a : Word}
    (hs : s.schedule = .env (.dma (pre ++ op :: post)) :: rest) (h : ∀ q ∈ pre, DmaAdmitted s q) (hw : WideSram w a)
    (ho : op = .read w a ∨ ∃ v, op = .write w a v) : step s = .refused .sramWideAccess := by
  rw [step_env_actedTurn s _ rest hs, State.envAction,
    dma_wide _ pre post op w a (dmaAdmitted_actedTurn h) ((sramWide_iff_wideSram w a).mpr hw) ho, outcome_error]

theorem step_dma_window {pre post : List DmaOp} {w : Width} {a v : Word}
    (hs : s.schedule = .env (.dma (pre ++ .write w a v :: post)) :: rest) (h : ∀ q ∈ pre, DmaAdmitted s q)
    (hw : ¬ WideSram w a) (hi : StoresInto s.cpsr.t s.pc w a) : step s = .refused .prefetchWindowWrite := by
  rw [step_env_actedTurn s _ rest hs, State.envAction,
    dma_window _ pre post w a v (dmaAdmitted_actedTurn h) ((sramWide_eq_false_iff w a).mpr hw)
      ((hitsWindow_iff s.cpsr.t s.pc w a v).mpr hi), outcome_error]

end

/-- Settles O55: four actions set one granule each, a transfer is its accesses in order up to the first refused one, and
a bus write has the effect and the frame of a store. -/
theorem environmentTurns : Obligations.EnvironmentTurns := by
  unfold Obligations.EnvironmentTurns
  refine ⟨fun bits => ?irq, fun line => ?vcount, fun vb hb vc => ?dispstat, fun keys => ?keyinput,
    fun s ops rest hs => ⟨fun h => ?done, ?refused⟩, ?store⟩
  case irq => exact setsGranule_of_envAction (fun old => old ||| (bits &&& 0x3FFF#16)) fun _ => rfl
  case vcount => exact setsGranule_of_envAction (fun _ => BitVec.ofNat 16 line.val) fun _ => rfl
  case dispstat =>
    refine setsGranule_of_envAction
      (fun old => (old &&& 0xFFF8#16) ||| BitVec.ofNat 16 (vb.toNat + 2 * hb.toNat + 4 * vc.toNat)) fun s => ?_
    rw [State.envAction, dispstatWithFlags_eq]
  case keyinput => exact setsGranule_of_envAction (fun _ => keys &&& 0x03FF#16) fun _ => rfl
  case done =>
    obtain ⟨hk, hd⟩ := foldl_dmaEffect_kept ops (actedTurn s rest)
    exact ⟨_, step_dma_of_admitted hs h, rfl, hk, hd⟩
  case refused =>
    rintro pre op post rfl h
    refine ⟨fun w a hw ho => step_dma_wide hs h hw ho, ?_⟩
    rintro w a v rfl hw hi
    exact step_dma_window hs h hw hi
  case store =>
    rintro s _ w a v hw rfl
    obtain ⟨hregs, hcpsr, hpc, hk⟩ := memWrite_keeps s w a v
    exact ⟨memWrite_effect s w a v ((sramWide_eq_false_iff w a).mpr hw), memWrite_outside s w a v, hk, hregs, hcpsr, hpc⟩

end Sys2Proof.Proofs
end

section
/-! PROOFS. Registers and status words, what a CPU step runs, and the reset (10_state R51 to R67, R73). -/

namespace Sys2Proof.Proofs

open Sys2Proof.Machine Sys2Proof.Statements

/-! ### Register banks (10_state R52, R62) -/

/-- Numbers of two modes name one register exactly when they are equal and the modes share its bank. -/
theorem physReg_eq_iff : ∀ (m n : Mode) (i j : RegNum), i ≠ 15#4 →
    (physReg n j = physReg m i ↔ j = i ∧ sharedBank m n i = true) := by
  intro m n
  cases m <;> cases n <;> decide +kernel

theorem readRegMode_writeRegMode (s : State) (m n : Mode) (i j : RegNum) (v r15 : Word) (hi : i ≠ 15#4) :
    (s.writeRegMode m i v).readRegMode n r15 j =
      if j = i ∧ sharedBank m n i = true then v else s.readRegMode n r15 j := by
  obtain ⟨p, hp⟩ := physReg_isSome (m := m) hi
  simp only [← physReg_eq_iff m n i j hi, State.writeRegMode, State.readRegMode, hp]
  cases hq : physReg n j with
  | none => simp
  | some q =>
    by_cases e : q = p
    · simp [e]
    · simp [e, reg_setReg_ne s p q v e]

/-- Settles O27: the bank table says which numbers of two modes name one register, and the register file holds what was
written last. -/
theorem registerBanks : Obligations.RegisterBanks := by
  unfold Obligations.RegisterBanks
  exact ⟨readRegMode_writeRegMode, fun s => ⟨readReg_pc_number s _, readReg_pc_number s _⟩⟩

/-! ### The status word (10_state R57, R59) -/

/-- Settles O5: by the bits of the word, which hold every field of CPSR. -/
theorem statusWordLayout : Obligations.StatusWordLayout := by
  unfold Obligations.StatusWordLayout
  refine ⟨fun p => ?_, toWord_injective, spsrs_eq_none⟩
  have bit := toWord_getLsbD p
  refine ⟨bit 31 (by decide), bit 30 (by decide), bit 29 (by decide), bit 28 (by decide), toWord_reserved p,
    bit 7 (by decide), bit 6 (by decide), bit 5 (by decide), (toWord_mode p).trans ?_⟩
  cases p.mode <;> rfl

/-! ### The CPU step (60_exceptions R870; 70_reset_and_hazards R942) -/

theorem step_cpuTurn {s u : State} (h : CpuTurn s u) : step s = cpuStep u := by
  obtain ⟨hs, rfl⟩ | ⟨rest, hs, rfl⟩ := h
  · rw [step, hs]
    show cpuStep s.beginBudget = _
    rw [beginBudget_eq, openedTurn, ← hs]
  · rw [step, hs]
    show cpuStep (State.beginBudget { s with schedule := rest }) = _
    rw [beginBudget_eq, openedTurn]

theorem irqPending_iff (u : State) : u.irqPending = true ↔ IrqWanted u := by
  simp [State.irqPending, IrqWanted, and_assoc]

/-- The bytes at the PC are those the fetch decodes (10_state R67; 20_memory R157). -/
theorem fetchInstr_of_decode {u : State} {i : Instr} {rest : List Byte}
    (h : decode u.cpsr.t (codeAt u) = .ok (i, rest)) : u.fetchInstr = i := by
  unfold State.fetchInstr
  unfold codeAt at h
  cases ht : u.cpsr.t <;> rw [ht] at h <;> cases h <;> rfl

theorem hazardMet_iff (u : State) (i : Instr) :
    (u.userBankHazard && accessesBanked i u.cpsr) = true ↔ HazardMet u i := by
  simp only [HazardMet, accessesBanked, Bool.and_eq_true, List.any_eq_true, bankedIn_iff]

/-- A CPU turn that fetches an instruction and takes no IRQ runs it. -/
theorem step_of_fetches {s u : State} {i : Instr} (h : Fetches s u i) : step s = runInstr i u.tick := by
  obtain ⟨hturn, hirq, hpc, hdecode⟩ := h
  have noIrq : ¬ u.tick.irqPending = true := fun e => hirq ((irqPending_iff u).mp e)
  rw [step_cpuTurn hturn, cpuStep, if_neg noIrq, if_pos ((executable_iff u.pc).mpr hpc),
    fetchInstr_of_decode (u := u.tick) hdecode]

/-- Settles O45: the turn is the CPU's, no IRQ and no fault comes before the instruction, and the hazard is not met. -/
theorem stepRunsDecoded : Obligations.StepRunsDecoded := by
  unfold Obligations.StepRunsDecoded
  intro s u i hf hh
  have noHazard : ¬ (u.userBankHazard && accessesBanked i u.cpsr) = true := fun e => hh ((hazardMet_iff u i).mp e)
  rw [step_of_fetches hf, runInstr]
  exact if_neg noHazard

/-! ### Reset (10_state R73; 20_memory R199; 70_reset_and_hazards R920) -/

theorem ioRaw_setIoRaw (s : State) (q r : IoReg) (v : Half) :
    (s.setIoRaw r v).ioRaw q = if q = r then v else s.ioRaw q := by
  by_cases h : q = r
  · rw [if_pos h, h, ioRaw_setIoRaw_same]
  · rw [if_neg h, ioRaw_setIoRaw_ne s q r v h]

theorem ioRaw_reset (r : IoReg) : State.reset.ioRaw r = if r = .keyinput then 0x03FF#16 else 0#16 := by
  cases r <;> decide +kernel

/-- A later reset leaves VCOUNT and KEYINPUT, which are the environment's. -/
theorem ioRaw_powerOn (s : State) (r : IoReg) : s.powerOn.ioRaw r =
    if r = .keyinput then s.ioRaw .keyinput else if r = .vcount then s.ioRaw .vcount else 0#16 := by
  have h : s.powerOn.ioRaw r =
      ((State.reset.setIoRaw .vcount (s.ioRaw .vcount)).setIoRaw .keyinput (s.ioRaw .keyinput)).ioRaw r := rfl
  rw [h, ioRaw_setIoRaw, ioRaw_setIoRaw, ioRaw_reset]
  split <;> rfl

theorem step_reset {s : State} {rest : List Turn} (h : s.schedule = .env .reset :: rest) :
    step s = .next (actedTurn s rest).powerOn := step_env_actedTurn s .reset rest h

theorem isImageKey_iff (k : Nat) : isImageKey k = true ↔ k < 0x4000 ∨ 0x08000000 ≤ k ∧ k < 0x0A000000 := by
  simp [isImageKey]

/-- A later reset keeps the bytes of the images and no other (20_memory R199). -/
theorem get?_powerOn (s : State) (h : Memory.rising s.mem = true) (k : Nat) : Memory.get? s.powerOn.mem k =
    if k < 0x4000 ∨ 0x08000000 ≤ k ∧ k < 0x0A000000 then Memory.get? s.mem k else none := by
  simp only [← isImageKey_iff]
  exact get?_filter s.mem isImageKey h k

/-- Settles O51: both resets give the fields of the reset state; the granules and the bytes of a later one are those its
lookups say. -/
theorem resetValues : Obligations.ResetValues := by
  unfold Obligations.ResetValues
  refine ⟨?values, fun s rest hs => ⟨_, step_reset hs, rfl, rfl, ?_, ?_, fun hinv k => ?_⟩⟩
  case values =>
    rintro t (rfl | ⟨s, rest, hs, ht⟩)
    · exact ⟨rfl, rfl, rfl, toWord_getLsbD _ 6 (by decide), rfl, rfl, rfl, rfl, rfl, rfl, rfl, rfl, rfl,
        fun r _ hk => (ioRaw_reset r).trans (if_neg hk)⟩
    · cases (step_reset hs).symm.trans ht
      exact ⟨rfl, rfl, rfl, toWord_getLsbD _ 6 (by decide), rfl, rfl, rfl, rfl, rfl, rfl, rfl, rfl, rfl,
        fun r hv hk => (ioRaw_powerOn _ r).trans ((if_neg hk).trans (if_neg hv))⟩
  · exact ioRaw_powerOn _ .vcount
  · exact ioRaw_powerOn _ .keyinput
  · have hm := hinv.memory
    rw [Memory.wf, Bool.and_eq_true] at hm
    exact get?_powerOn (actedTurn s rest) hm.1 k

theorem reset_spsrs_reserved (m : Mode) (v : Word) (h : State.reset.spsrs.get? m = some v) :
    reservedStatusBits v = 0#20 := by
  cases m <;> cases h <;> decide

/-- Settles O49: each clause by the value of its field at reset. -/
theorem resetHasInvariant : Obligations.ResetHasInvariant := by
  unfold Obligations.ResetHasInvariant
  exact {
    memory := rfl
    pc := by unfold State.pcAligned; decide
    spsrs := reset_spsrs_reserved
    io := fun r => by rw [ioRaw_reset]; cases r <;> decide
    vcount := by rw [ioRaw_reset]; decide
    objMeta := fun x => by simp [State.reset]
    rendered := fun h => by cases h }

end Sys2Proof.Proofs
end

section
/-! PROOFS. The parts of the invariant, and what keeps memory, the SPSRs, the I/O page and the alignment of the PC
(10_state R57, R60, R70; 20_memory R186, R188). -/

namespace Sys2Proof.Proofs

open Sys2Proof.Machine Sys2Proof.Statements

/-! ### The parts of the invariant -/

/-- The clauses that rest on memory, the SPSRs and the I/O page. -/
structure StorageInv (s : State) : Prop where
  memory : Memory.wf s.mem = true
  spsrs : ∀ m v, s.spsrs.get? m = some v → reservedStatusBits v = 0#20
  io : ∀ r : IoReg, s.ioRaw r &&& ~~~r.storable = 0#16
  vcount : (s.ioRaw .vcount).toNat < 228

/-- An address is aligned for a processor state (10_state R60). -/
def AlignedFor (thumb : Bool) (v : Word) : Prop := v.toNat % (if thumb then 2 else 4) = 0

/-- The clauses an instruction may touch. -/
structure CpuInv (s : State) : Prop extends StorageInv s where
  pc : AlignedFor s.cpsr.t s.pc

/-- `CpuInv` in a processor state, as a body of ARM or Thumb finds it. -/
structure CpuInvIn (thumb : Bool) (s : State) : Prop extends CpuInv s where
  state : s.cpsr.t = thumb

/-- The clauses about the sprite metadata and the frame driver, which no instruction touches. -/
structure FrameInv (s : State) : Prop where
  objMeta : ∀ x : Fin 240, s.objMeta[x].extractLsb' 5 3 = 0#3
  rendered : s.phase = .effects → s.line.val < 160

/-! ### Aligned addresses -/

theorem alignedFor_arm_iff (v : Word) : AlignedFor false v ↔ v.extractLsb' 0 2 = 0#2 := by
  rw [← BitVec.toNat_inj, lowTwo_toNat]
  rfl

theorem alignedFor_thumb_iff (v : Word) : AlignedFor true v ↔ v.getLsbD 0 = false := by
  rw [bit0_eq, decide_eq_false_iff_not, AlignedFor, if_pos rfl]
  omega

theorem pcAligned_iff (s : State) : s.pcAligned ↔ AlignedFor s.cpsr.t s.pc := by
  unfold State.pcAligned
  cases s.cpsr.t
  · exact (alignedFor_arm_iff s.pc).symm
  · exact (alignedFor_thumb_iff s.pc).symm

/-- The next instruction is at an aligned address (10_state R61). -/
theorem AlignedFor.add_four {v : Word} (h : AlignedFor false v) : AlignedFor false (v + 4#32) := by
  have h : v.toNat % 4 = 0 := h
  show (v + 4#32).toNat % 4 = 0
  rw [BitVec.toNat_add, BitVec.toNat_ofNat]
  omega

theorem AlignedFor.add_two {v : Word} (h : AlignedFor true v) : AlignedFor true (v + 2#32) := by
  have h : v.toNat % 2 = 0 := h
  show (v + 2#32).toNat % 2 = 0
  rw [BitVec.toNat_add, BitVec.toNat_ofNat]
  omega

theorem alignedFor_wordMask (v : Word) : AlignedFor false (v &&& 0xFFFFFFFC#32) := by
  have h := alignAddr_word_toNat v
  show (alignAddr .word v).toNat % 4 = 0
  omega

theorem alignedFor_halfMask (v : Word) : AlignedFor true (v &&& 0xFFFFFFFE#32) := by
  have h := alignAddr_half_toNat v
  show (alignAddr .half v).toNat % 2 = 0
  omega

theorem alignedFor_alignByState (thumb : Bool) (v : Word) : AlignedFor thumb (alignByState thumb v) := by
  cases thumb
  · exact alignedFor_wordMask v
  · exact alignedFor_halfMask v

/-- The offset of an ARM branch is whole words (44_arm_branch_system R550). -/
theorem alignedFor_armBranchTarget {s : State} (h : AlignedFor false s.pc) (off24 : BitVec 24) :
    AlignedFor false (armBranchTarget off24 s) := by
  have h : s.pc.toNat % 4 = 0 := h
  have e : armBranchTarget off24 s = _ := branchTarget_eq s.pc 8 off24 2 (by decide)
  show (armBranchTarget off24 s).toNat % 4 = 0
  rw [e, BitVec.toNat_ofInt]
  omega

/-- The offset of a Thumb branch is whole halfwords (46_thumb_mem_branch R670, R672). -/
theorem alignedFor_thumbTarget {pc : Word} (h : AlignedFor true pc) {n : Nat} (off : BitVec n) (hn : 0 < n) :
    AlignedFor true (pc + 4#32 + (off ++ 0#1 : BitVec (n + 1)).signExtend 32) := by
  have h : pc.toNat % 2 = 0 := h
  have e := branchTarget_eq pc 4 off 1 hn
  show (pc + BitVec.ofNat 32 4 + (off ++ 0#1 : BitVec (n + 1)).signExtend 32).toNat % 2 = 0
  rw [e, BitVec.toNat_ofInt]
  omega

theorem alignedFor_vector (k : ExceptionKind) : AlignedFor false k.vector := by
  cases k <;> rfl

theorem inv_iff (s : State) : s.Inv ↔ CpuInv s ∧ FrameInv s := by
  constructor
  · rintro ⟨hm, hp, hs, hi, hv, ho, hr⟩
    exact ⟨⟨⟨hm, hs, hi, hv⟩, (pcAligned_iff s).mp hp⟩, ho, hr⟩
  · rintro ⟨⟨⟨hm, hs, hi, hv⟩, hp⟩, ho, hr⟩
    exact ⟨hm, (pcAligned_iff s).mpr hp, hs, hi, hv, ho, hr⟩

/-! ### Memory, the SPSRs and the I/O page -/

/-- A write leaves a core granule no bit its row does not have (20_memory R186, R190). -/
theorem ioMerged_storable (r : IoReg) (old v : Half) (h : old &&& ~~~r.storable = 0#16) :
    ioMerged r old v &&& ~~~r.storable = 0#16 := by
  apply BitVec.eq_of_getLsbD_eq
  intro i hi
  have hbit := congrArg (·.getLsbD i) h
  simp only [IoReg.storable, BitVec.getLsbD_and, BitVec.getLsbD_not, BitVec.getLsbD_or, BitVec.getLsbD_zero, hi,
    decide_true, Bool.true_and, ioMerged_getLsbD r old v i hi] at hbit ⊢
  revert hbit
  generalize old.getLsbD i = x, v.getLsbD i = y, r.readMask.getLsbD i = a, r.writeMask.getLsbD i = b
  split <;> revert x y a b <;> decide

/-- Software writes no bit of VCOUNT. -/
theorem ioMerged_vcount (old v : Half) : ioMerged .vcount old v = old := by
  apply BitVec.eq_of_getLsbD_eq
  intro i hi
  simp [ioMerged_getLsbD .vcount old v i hi, IoReg.writeMask]

/-- After a write to one SPSR, each holds the value written or what it held. -/
theorem spsrs_get?_set {l : Spsrs} {m n : Mode} {v x : Word} (h : (l.set m v).get? n = some x) :
    x = v ∨ l.get? n = some x := by
  by_cases e : n = m
  · subst e
    cases ho : l.get? n with
    | none => rw [(spsrs_eq_none _ n).mpr ((spsrs_eq_none l n).mp ho)] at h; cases h
    | some old => rw [spsrs_set_same l n v old ho] at h; exact .inl (Option.some.inj h).symm
  · exact .inr (spsrs_set_ne l m n v e ▸ h)

namespace StorageInv

variable {s t : State}

theorem congr (h : StorageInv s) (hm : t.mem = s.mem := by simp) (hs : t.spsrs = s.spsrs := by simp)
    (hi : t.io = s.io := by simp) : StorageInv t where
  memory := hm ▸ h.memory
  spsrs := hs ▸ h.spsrs
  io r := ioRaw_congr hi r ▸ h.io r
  vcount := ioRaw_congr hi .vcount ▸ h.vcount

theorem setIoRaw (h : StorageInv s) (r : IoReg) (v : Half) (hv : v &&& ~~~r.storable = 0#16)
    (hl : r = .vcount → v.toNat < 228) : StorageInv (s.setIoRaw r v) where
  memory := h.memory
  spsrs := h.spsrs
  io q := by
    rw [ioRaw_setIoRaw]
    split
    · next e => exact e ▸ hv
    · exact h.io q
  vcount := by
    rw [ioRaw_setIoRaw]
    split
    · next e => exact hl e.symm
    · exact h.vcount

theorem setSpsr (h : StorageInv s) (m : Mode) {v : Word} (hv : reservedStatusBits v = 0#20) :
    StorageInv { s with spsrs := s.spsrs.set m v } where
  memory := h.memory
  spsrs n x hx := (spsrs_get?_set hx).elim (fun e => e ▸ hv) (h.spsrs n x)
  io := h.io
  vcount := h.vcount

theorem ioWrite16 (h : StorageInv s) (o : Nat) (v : Half) : StorageInv (s.ioWrite16 o v) := by
  unfold State.ioWrite16
  split
  · next r _ =>
    refine StorageInv.congr (h.setIoRaw r _ (ioMerged_storable r _ v (h.io r)) ?_)
    rintro rfl
    rw [ioMerged_vcount]
    exact h.vcount
  · exact h.congr
  · exact h

/-- A bus write, to storage or to the I/O page (20_memory R154, R185). -/
theorem memWrite (h : StorageInv s) (w : Width) (a v : Word) : StorageInv (s.memWrite w a v) := by
  by_cases hr : regionOf a = .io
  · rw [memWrite_of_io s w a v hr]
    cases w
    · exact h.ioWrite16 _ _
    · exact h.ioWrite16 _ _
    · exact (h.ioWrite16 _ _).ioWrite16 _ _
  · have hm := memWrite_wf s w a v h.memory
    rw [memWrite_of_storage s w a v hr] at hm ⊢
    exact { h with memory := hm }

/-- The status word an exception saves has its reserved bits 0 (10_state R57; 60_exceptions R871). -/
theorem enterException (h : StorageInv s) (k : ExceptionKind) (ret : Word) : CpuInv (s.enterException k ret) where
  toStorageInv := StorageInv.congr (h.setSpsr k.mode (toWord_reserved s.cpsr))
  pc := alignedFor_vector k

end StorageInv

/-! ### Answers of a body -/

/-- The state a body answers, if it answers one, has a property. -/
def Answers (P : State → Prop) (x : Except Refusal State) : Prop := ∀ t, x = .ok t → P t

namespace Answers

variable {P Q : State → Prop}

theorem ok {t : State} (h : P t) : Answers P (.ok t) := fun _ e => Except.ok.inj e ▸ h

theorem error (r : Refusal) : Answers P (.error r) := fun _ e => by cases e

theorem refuseIf {b : Bool} {r : Refusal} {x : Except Refusal State} (h : b = false → Answers P x) :
    Answers P (refuseIf b r x) := fun t e =>
  let ⟨hb, hx⟩ := (refuseIf_eq_ok b r x t).mp e
  h hb t hx

theorem ite {c : Prop} [Decidable c] {x y : Except Refusal State} (h : c → Answers P x) (g : ¬ c → Answers P y) :
    Answers P (if c then x else y) := by
  split
  · next hc => exact h hc
  · next hc => exact g hc

/-- A value read before the state is built. -/
theorem bindValue {α : Type} {x : Except Refusal α} {f : α → Except Refusal State} (h : ∀ v, Answers P (f v)) :
    Answers P (x.bind f) := fun t e =>
  let ⟨v, _, hf⟩ := (bind_eq_ok x f t).mp e
  h v t hf

/-- A state built before another. -/
theorem bind {x : Except Refusal State} {f : State → Except Refusal State} (h : Answers Q x)
    (g : ∀ t, Q t → Answers P (f t)) : Answers P (x.bind f) := fun u e =>
  let ⟨t, hx, hf⟩ := (bind_eq_ok x f u).mp e
  g t (h t hx) u hf

theorem outcome {x : Except Refusal State} {t : State} (h : Answers P x) (e : outcome x = .next t) : P t :=
  h t ((outcome_eq_next x t).mp e)

end Answers

/-! ### Branches and the restore of CPSR -/

namespace StorageInv

variable {s : State} (h : StorageInv s)
include h

theorem branchArm (ht : s.cpsr.t = false) (v : Word) : Answers CpuInv (s.branchArm v) :=
  .refuseIf fun hv => .ok ⟨h.congr, by
    rw [ht, alignedFor_arm_iff]
    exact not_not.mp (of_decide_eq_false hv)⟩

theorem branchThumb (ht : s.cpsr.t = true) (v : Word) : CpuInv (s.branchThumb v) :=
  ⟨h.congr, by rw [branchThumb_cpsr, ht]; exact alignedFor_halfMask v⟩

/-- The state the target's bit 0 selects is the one the target is aligned for (44_arm_branch_system R552). -/
theorem branchExchange (v : Word) : Answers CpuInv (s.branchExchange v) := by
  refine .refuseIf fun hv => .ok ⟨h.congr, ?_⟩
  show AlignedFor (v.getLsbD 0) (alignAddr .half v)
  cases h0 : v.getLsbD 0
  · have h1 : v.getLsbD 1 = false := by rw [h0] at hv; exact hv
    rw [bit0_eq, decide_eq_false_iff_not] at h0
    rw [bit1_eq, decide_eq_false_iff_not] at h1
    show (alignAddr .half v).toNat % 4 = 0
    rw [alignAddr_half_toNat]
    omega
  · exact alignedFor_halfMask v

theorem restoreCpsr : Answers StorageInv s.restoreCpsr := fun t e => by
  obtain ⟨v, m, -, -, rfl⟩ := restoreCpsr_eq_ok s t e
  exact h.congr

end StorageInv

end Sys2Proof.Proofs
end

section
/-! PROOFS. The bodies of the instructions keep the invariant, each in its own processor state (10_state R60, R61). -/

namespace Sys2Proof.Proofs

open Sys2Proof.Machine Sys2Proof.Statements

/-! ### The parts of an instruction body -/

theorem CpuInv.memWrite {s : State} (h : CpuInv s) (w : Width) (a v : Word) : CpuInv (s.memWrite w a v) where
  toStorageInv := h.toStorageInv.memWrite w a v
  pc := by
    obtain ⟨-, hc, hp, -⟩ := memWrite_keeps s w a v
    rw [hc, hp]
    exact h.pc

namespace CpuInvIn

variable {thumb : Bool} {s t : State}

/-- Writing registers or counters keeps the invariant. -/
theorem congr (h : CpuInvIn thumb s) (hm : t.mem = s.mem := by simp) (hs : t.spsrs = s.spsrs := by simp)
    (hi : t.io = s.io := by simp) (hc : t.cpsr = s.cpsr := by simp) (hp : t.pc = s.pc := by simp) :
    CpuInvIn thumb t where
  toStorageInv := h.toStorageInv.congr hm hs hi
  pc := by rw [hc, hp]; exact h.pc
  state := by rw [hc]; exact h.state

theorem pc_aligned (h : CpuInvIn thumb s) : AlignedFor thumb s.pc := h.state ▸ h.pc

/-- The end of a body that writes the PC and keeps the processor state. -/
theorem jump (h : CpuInvIn thumb s) (ha : AlignedFor thumb t.pc) (hm : t.mem = s.mem := by simp)
    (hs : t.spsrs = s.spsrs := by simp) (hi : t.io = s.io := by simp) (hc : t.cpsr.t = s.cpsr.t := by simp) :
    CpuInv t where
  toStorageInv := h.toStorageInv.congr hm hs hi
  pc := by rw [hc, h.state]; exact ha

/-- The end of a body that goes on to the next ARM instruction (10_state R61). -/
theorem next4 (h : CpuInvIn false s) (hp : t.pc = s.pc + 4#32 := by simp) (hm : t.mem = s.mem := by simp)
    (hs : t.spsrs = s.spsrs := by simp) (hi : t.io = s.io := by simp) (hc : t.cpsr.t = s.cpsr.t := by simp) :
    CpuInv t := h.jump (hp ▸ h.pc_aligned.add_four) hm hs hi hc

/-- The end of a body that goes on to the next Thumb instruction (10_state R61). -/
theorem next2 (h : CpuInvIn true s) (hp : t.pc = s.pc + 2#32 := by simp) (hm : t.mem = s.mem := by simp)
    (hs : t.spsrs = s.spsrs := by simp) (hi : t.io = s.io := by simp) (hc : t.cpsr.t = s.cpsr.t := by simp) :
    CpuInv t := h.jump (hp ▸ h.pc_aligned.add_two) hm hs hi hc

theorem writeReg (h : CpuInvIn thumb s) (i : RegNum) (v : Word) : CpuInvIn thumb (s.writeReg i v) := h.congr

theorem setLow (h : CpuInvIn thumb s) (r : LowReg) (v : Word) : CpuInvIn thumb (s.setLow r v) := h.congr

theorem writeback (h : CpuInvIn thumb s) (wb : Bool) (rn : RegNum) (v : Word) :
    CpuInvIn thumb (s.writeback wb rn v) := h.congr

theorem blockWriteback (h : CpuInvIn thumb s) (w u : Bool) (rn : RegNum) (rlist : BitVec 16) (base : Word) :
    CpuInvIn thumb (blockWriteback w u rn rlist base s) := h.congr

theorem writeListed (h : CpuInvIn thumb s) (m : Mode) (l : List (RegNum × Word)) :
    CpuInvIn thumb (s.writeListed m l) := h.congr

theorem memWrite (h : CpuInvIn thumb s) (w : Width) (a v : Word) : CpuInvIn thumb (s.memWrite w a v) where
  toCpuInv := h.toCpuInv.memWrite w a v
  state := by
    obtain ⟨-, hc, -, -⟩ := memWrite_keeps s w a v
    rw [hc]
    exact h.state

theorem store (h : CpuInvIn thumb s) (w : Width) (a v : Word) : Answers (CpuInvIn thumb) (s.store w a v) :=
  .refuseIf fun _ => .refuseIf fun _ => .ok (h.memWrite w a v)

theorem storeAll (h : CpuInvIn thumb s) (l : List (Word × Word)) : Answers (CpuInvIn thumb) (s.storeAll l) := by
  induction l generalizing s with
  | nil => exact .ok h
  | cons x l ih => exact .bind (h.store .word x.1 x.2) fun _ ht => ih ht

end CpuInvIn

/-! ### The bodies of the ARM instructions -/

theorem dpResult_state (op : DpOp) (rn : RegNum) (op2 : Operand2) (s : State) :
    (dpResult op rn op2 s).2.t = s.cpsr.t := by
  cases op <;> rfl

/-- MSR never writes the reserved bits of an SPSR (41_arm_dataproc R417). -/
theorem mergeMasked_reserved (old v : Word) (mask : BitVec 4) (h : reservedStatusBits old = 0#20) :
    reservedStatusBits (mergeMasked old v (msrByteMask mask)) = 0#20 := by
  rw [← h]
  apply BitVec.eq_of_getLsbD_eq
  intro i hi
  have hmask : (msrByteMask mask).getLsbD (8 + i) = false := by
    rw [msrByteMask_getLsbD mask (8 + i) (by omega), decide_eq_false (by omega : ¬ 28 ≤ 8 + i),
      decide_eq_false (by omega : ¬ 8 + i < 8)]
    rfl
  simp [reservedStatusBits, BitVec.getLsbD_extractLsb', mergeMasked_getLsbD _ _ _ (8 + i) (by omega), hmask]

namespace Answers

variable {P : State → Prop} {y : Except Refusal State}

theorem transferChecks {x : Indexing} {rn : RegNum} {o : Offset12} {rd : Option RegNum} (h : Answers P y) :
    Answers P (transferChecks x rn o rd y) := .refuseIf fun _ => .refuseIf fun _ => .refuseIf fun _ => h

theorem halfwordChecks {x : Indexing} {rn rd : RegNum} {o : Offset8} {load : Bool} (h : Answers P y) :
    Answers P (halfwordChecks x rn rd o load y) :=
  .refuseIf fun _ => .refuseIf fun _ => .refuseIf fun _ => .refuseIf fun _ => .refuseIf fun _ => h

theorem blockChecks {rn : RegNum} {rlist : BitVec 16} (h : Answers P y) : Answers P (blockChecks rn rlist y) :=
  .refuseIf fun _ => .refuseIf fun _ => h

theorem userBankChecks {w : Bool} {s : State} (h : Answers P y) : Answers P (userBankChecks w s y) :=
  .refuseIf fun _ => .refuseIf fun _ => h

end Answers

namespace CpuInvIn

variable {s : State} (h : CpuInvIn false s)
include h

theorem advance4 : CpuInv s.advance4 := h.next4

theorem returnFromException (v : Word) : Answers CpuInv (s.returnFromException v) :=
  .bind h.toStorageInv.restoreCpsr fun _ ht =>
    .ite (fun hc => .ok (ht.branchThumb hc v)) fun hc => ht.branchArm (Bool.eq_false_iff.mpr hc) v

theorem dpWrite (op : DpOp) (setFlags : Bool) (rn rd : RegNum) (op2 : Operand2) :
    Answers CpuInv (dpWrite op setFlags rn rd op2 s) := by
  refine .refuseIf fun _ => .ite (fun _ => .ite (fun _ => h.returnFromException _) fun _ => ?_) fun _ => .ok ?_
  · exact h.toStorageInv.branchArm h.state _
  · exact h.next4 (hc := by cases setFlags <;> simp [dpResult_state])

theorem dpTest (op : DpOp) (rn rd : RegNum) (op2 : Operand2) : Answers CpuInv (dpTest op rn rd op2 s) :=
  .refuseIf fun _ => .ok (h.next4 (hc := dpResult_state op rn op2 s))

theorem mrs (spsr : Bool) (sbo : BitVec 4) (rd : RegNum) (high low : BitVec 4) :
    Answers CpuInv (mrsBody spsr sbo rd high low s) := by
  refine .refuseIf fun _ => .refuseIf fun _ => .ite (fun _ => ?_) fun _ => .ok (h.writeReg _ _).advance4
  split
  · exact .error _
  · exact .ok (h.writeReg _ _).advance4

theorem msr (spsr : Bool) (mask : BitVec 4) (v : Word) : Answers CpuInv (msrWrite spsr mask v s) := by
  refine .ite (fun _ => ?_) fun _ => .refuseIf fun ht => ?_
  · unfold msrSpsr
    split
    · exact .error _
    · next old hold =>
      have hs := h.toStorageInv.setSpsr s.cpsr.mode (mergeMasked_reserved old v mask (h.spsrs _ old hold))
      exact .ok ⟨hs.congr, h.state ▸ h.pc_aligned.add_four⟩
  · split
    · exact .error _
    · exact .ok (h.next4 (hc := not_not.mp (of_decide_eq_false ht)))

theorem multiply (setFlags : Bool) (rd : RegNum) (v : Word) : CpuInv (multiplyWrite setFlags rd v s) := by
  unfold multiplyWrite
  exact h.next4 (hc := by cases setFlags <;> rfl)

theorem multiplyLong (signed accumulate setFlags : Bool) (rdHi rdLo rs rm : RegNum) :
    Answers CpuInv (multiplyLong signed accumulate setFlags rdHi rdLo rs rm s) := by
  refine .refuseIf fun _ => .ok ?_
  unfold multiplyLongWrite
  exact h.next4 (hc := by cases setFlags <;> rfl)

theorem swap (w : Width) (a v r : Word) (rd : RegNum) :
    Answers CpuInv ((s.store w a v).bind fun t => .ok (t.writeReg rd r).advance4) :=
  .bind (h.store w a v) fun _ ht => .ok (ht.writeReg rd r).advance4

/-- A load into r15 clears the low bits of the word (43_arm_loadstore R483). -/
theorem loadWord (x : Indexing) (rn rd : RegNum) (o : Offset12) : Answers CpuInv (loadWordTransfer x rn rd o s) :=
  .transferChecks <| .refuseIf fun _ => .bindValue fun v =>
    .ite (fun _ => .ok (h.jump (alignedFor_wordMask v)))
      fun _ => .ok ((h.writeback _ _ _).writeReg _ _).advance4

theorem loadByte (x : Indexing) (rn rd : RegNum) (o : Offset12) : Answers CpuInv (loadByteTransfer x rn rd o s) :=
  .transferChecks <| .refuseIf fun _ => .bindValue fun _ => .ok ((h.writeback _ _ _).writeReg _ _).advance4

theorem storeThenWriteback (w : Width) (a v : Word) (wb : Bool) (rn : RegNum) (moved : Word) :
    Answers CpuInv ((s.store w a v).bind fun t => .ok (t.writeback wb rn moved).advance4) :=
  .bind (h.store w a v) fun _ ht => .ok (ht.writeback wb rn moved).advance4

theorem storeWord (x : Indexing) (rn rd : RegNum) (o : Offset12) : Answers CpuInv (storeWordTransfer x rn rd o s) :=
  .transferChecks <| h.storeThenWriteback _ _ _ _ _ _

theorem storeByte (x : Indexing) (rn rd : RegNum) (o : Offset12) : Answers CpuInv (storeByteTransfer x rn rd o s) :=
  .transferChecks <| .refuseIf fun _ => h.storeThenWriteback _ _ _ _ _ _

theorem loadHalfword (w : Width) (signed : Bool) (x : Indexing) (rn rd : RegNum) (o : Offset8) :
    Answers CpuInv (loadHalfwordTransfer w signed x rn rd o s) :=
  .halfwordChecks <| .refuseIf fun _ => .bindValue fun _ => .ok ((h.writeback _ _ _).writeReg _ _).advance4

theorem storeHalfword (x : Indexing) (rn rd : RegNum) (o : Offset8) :
    Answers CpuInv (storeHalfwordTransfer x rn rd o s) :=
  .halfwordChecks <| .refuseIf fun _ => h.storeThenWriteback _ _ _ _ _ _

theorem stm (p u w : Bool) (rn : RegNum) (rlist : BitVec 16) : Answers CpuInv (stmBody p u w rn rlist s) :=
  .blockChecks <| .refuseIf fun _ => .bind (h.storeAll _) fun _ ht => .ok (ht.blockWriteback _ _ _ _ _).advance4

theorem stmUser (p u w : Bool) (rn : RegNum) (rlist : BitVec 16) : Answers CpuInv (stmUserBody p u w rn rlist s) :=
  .blockChecks <| .userBankChecks <| .bind (h.storeAll _) fun _ ht => .ok ht.advance4

theorem ldm (p u w : Bool) (rn : RegNum) (rlist : BitVec 16) : Answers CpuInv (ldmBody p u w rn rlist s) := by
  refine .blockChecks <| .refuseIf fun _ => .bindValue fun vs => ?_
  have hl := (h.blockWriteback w u rn rlist (s.armReg rn)).writeListed s.cpsr.mode ((listedRegs rlist).zip vs)
  exact .ite (fun _ => .ok (hl.jump (alignedFor_wordMask _))) fun _ => .ok hl.advance4

/-- The exception return aligns the PC for the state it restores (43_arm_loadstore R513). -/
theorem ldmReturn (p u w : Bool) (rn : RegNum) (rlist : BitVec 16) :
    Answers CpuInv (ldmReturnBody p u w rn rlist s) := by
  refine .refuseIf fun _ => .bindValue fun vs => ?_
  have hl := (h.blockWriteback w u rn rlist (s.armReg rn)).writeListed s.cpsr.mode ((listedRegs rlist).zip vs)
  exact .bind hl.toStorageInv.restoreCpsr fun r hr => .ok ⟨hr.congr, alignedFor_alignByState r.cpsr.t _⟩

theorem ldmUser (p u w : Bool) (rn : RegNum) (rlist : BitVec 16) : Answers CpuInv (ldmUserBody p u w rn rlist s) :=
  .blockChecks <| .ite (fun _ => h.ldmReturn p u w rn rlist)
    fun _ => .userBankChecks <| .bindValue fun _ => .ok h.next4

/-- What an ARM instruction answers when its body keeps the invariant. -/
theorem whenPassed {t : State} {c : Cond} {body : State → Except Refusal State} (e : whenPassed c s body = .next t)
    (hb : Answers CpuInv (body s)) : CpuInv t := by
  obtain ⟨-, he⟩ | ⟨-, rfl⟩ := (whenPassed_eq_next c s t body).mp e
  · exact hb t he
  · exact h.advance4

end CpuInvIn

/-! ### The bodies of the Thumb instructions -/

namespace CpuInvIn

variable {s : State} (h : CpuInvIn true s)
include h

theorem advance2 : CpuInv s.advance2 := h.next2

theorem branchThumb (v : Word) : CpuInv (s.branchThumb v) := h.toStorageInv.branchThumb h.state v

theorem thumbStore (w : Width) (a v : Word) : Answers CpuInv (thumbStore w a v s) :=
  .bind (h.store w a v) fun _ ht => .ok ht.advance2

theorem thumbStoreHalf (a v : Word) : Answers CpuInv (thumbStoreHalf a v s) := .refuseIf fun _ => h.thumbStore .half a v

theorem thumbLoadWord (a : Word) (rd : LowReg) : Answers CpuInv (thumbLoadWord a rd s) :=
  .bindValue fun _ => .ok (h.setLow _ _).advance2

theorem thumbLoad (w : Width) (signed : Bool) (a : Word) (rd : LowReg) : Answers CpuInv (thumbLoad w signed a rd s) :=
  .refuseIf fun _ => .bindValue fun _ => .ok (h.setLow _ _).advance2

theorem push (list : BitVec 16) : Answers CpuInv (pushBody list s) :=
  .refuseIf fun _ => .bind (h.storeAll _) fun _ ht => .ok (ht.writeReg _ _).advance2

theorem pop (list : BitVec 16) : Answers CpuInv (popBody list s) := by
  refine .refuseIf fun _ => .bindValue fun vs => ?_
  have hw := (h.writeListed s.cpsr.mode ((listedRegs list).zip vs)).writeReg 13#4 (s.thumbReg 13#4 + listBytes list)
  exact .ite (fun _ => .ok (hw.branchThumb _)) fun _ => .ok hw.advance2

theorem stmia (rb : LowReg) (rlist : BitVec 8) : Answers CpuInv (stmiaBody rb rlist s) :=
  .refuseIf fun _ => .refuseIf fun _ => .bind (h.storeAll _) fun _ ht => .ok (ht.setLow _ _).advance2

theorem ldmia (rb : LowReg) (rlist : BitVec 8) : Answers CpuInv (ldmiaBody rb rlist s) :=
  .refuseIf fun _ => .bindValue fun _ => .ok ((h.setLow _ _).writeListed _ _).advance2

theorem moveTo (d : RegNum) (v : Word) : CpuInv (thumbMoveTo d v s) := (h.writeReg d v).advance2

theorem hiWrite (d : RegNum) (v : Word) : CpuInv (thumbHiWrite d v s) := by
  unfold thumbHiWrite
  split
  · exact h.branchThumb v
  · exact h.moveTo d v

theorem condBranch (c : Cond) (soff8 : BitVec 8) : CpuInv (thumbCondBranch c soff8 s) := by
  unfold thumbCondBranch
  split
  · exact h.jump (alignedFor_thumbTarget h.pc_aligned soff8 (by decide))
  · exact h.advance2

theorem shifted (rd : LowReg) (r : Word × Bool) : CpuInv (thumbShifted rd r s) := by
  unfold thumbShifted
  exact h.next2 (hc := rfl)

theorem arithmetic (rd : LowReg) (r : AluResult) : CpuInv (thumbArithmetic rd r s) := by
  unfold thumbArithmetic
  exact h.next2 (hc := rfl)

theorem logical (rd : LowReg) (v : Word) : CpuInv (thumbLogical rd v s) := by
  unfold thumbLogical
  exact h.next2 (hc := rfl)

theorem compare (r : AluResult) : CpuInv (thumbCompare r s) := by
  unfold thumbCompare
  exact h.next2 (hc := rfl)

end CpuInvIn

end Sys2Proof.Proofs
end

section
/-! PROOFS. Every instruction and every CPU step keeps the invariant: T selects both the decoder and the alignment
(10_state R60, R67). -/

namespace Sys2Proof.Proofs

open Sys2Proof.Machine Sys2Proof.Statements

/-! ### Every instruction -/

/-- An ARM instruction keeps the invariant in ARM state. -/
theorem exec_arm_cpuInv {i : Instr} {w : Word} {s t : State} (hi : encode i = .arm w) (h : CpuInvIn false s)
    (e : exec i s = .next t) : CpuInv t := by
  cases i <;> rw [exec] at e
  case armAnd | armEor | armSub | armRsb | armAdd | armAdc | armSbc | armRsc | armOrr | armMov | armBic | armMvn =>
    exact h.whenPassed e (h.dpWrite _ _ _ _ _)
  case armTst | armTeq | armCmp | armCmn => exact h.whenPassed e (h.dpTest _ _ _ _)
  case armMrs => exact h.whenPassed e (h.mrs _ _ _ _ _)
  case armMsrReg => exact h.whenPassed e (.refuseIf fun _ => .refuseIf fun _ => h.msr _ _ _)
  case armMsrImm => exact h.whenPassed e (.refuseIf fun _ => h.msr _ _ _)
  case armMul => exact h.whenPassed e (.refuseIf fun _ => .refuseIf fun _ => .ok (h.multiply _ _ _))
  case armMla => exact h.whenPassed e (.refuseIf fun _ => .ok (h.multiply _ _ _))
  case armUmull | armUmlal | armSmull | armSmlal => exact h.whenPassed e (h.multiplyLong _ _ _ _ _ _ _)
  case armSwp | armSwpb =>
    exact h.whenPassed e (.refuseIf fun _ => .refuseIf fun _ => .bindValue fun _ => h.swap _ _ _ _ _)
  case armStrImmPre | armStrImmPost | armStrtImm | armStrRegPre | armStrRegPost | armStrtReg =>
    exact h.whenPassed e (h.storeWord _ _ _ _)
  case armStrbImmPre | armStrbImmPost | armStrbtImm | armStrbRegPre | armStrbRegPost | armStrbtReg =>
    exact h.whenPassed e (h.storeByte _ _ _ _)
  case armLdrImmPre | armLdrImmPost | armLdrtImm | armLdrRegPre | armLdrRegPost | armLdrtReg =>
    exact h.whenPassed e (h.loadWord _ _ _ _)
  case armLdrbImmPre | armLdrbImmPost | armLdrbtImm | armLdrbRegPre | armLdrbRegPost | armLdrbtReg =>
    exact h.whenPassed e (h.loadByte _ _ _ _)
  case armStrhImm => exact h.whenPassed e (h.storeHalfword _ _ _ _)
  case armStrhReg => exact h.whenPassed e (.refuseIf fun _ => h.storeHalfword _ _ _ _)
  case armLdrhImm | armLdrsbImm | armLdrshImm => exact h.whenPassed e (h.loadHalfword _ _ _ _ _ _)
  case armLdrhReg | armLdrsbReg | armLdrshReg =>
    exact h.whenPassed e (.refuseIf fun _ => h.loadHalfword _ _ _ _ _ _)
  case armStrhDspace => exact h.whenPassed e (.error _)
  case armStm => exact h.whenPassed e (h.stm _ _ _ _ _)
  case armStmUser => exact h.whenPassed e (h.stmUser _ _ _ _ _)
  case armLdm => exact h.whenPassed e (h.ldm _ _ _ _ _)
  case armLdmUser => exact h.whenPassed e (h.ldmUser _ _ _ _ _)
  case armB off24 => exact h.whenPassed e (.ok (h.jump (alignedFor_armBranchTarget h.pc_aligned off24)))
  case armBl off24 => exact h.whenPassed e (.ok (h.jump (alignedFor_armBranchTarget h.pc_aligned off24)))
  case armBx => exact h.whenPassed e (.refuseIf fun _ => h.toStorageInv.branchExchange _)
  case armSwi | armUndefA14 | armUndefMulspace | armUndefMisc | armLdc | armStc | armCdp | armMcr | armMrc =>
    exact h.whenPassed e (.ok (h.toStorageInv.enterException _ _))
  all_goals cases hi

/-- A Thumb instruction keeps the invariant in Thumb state. -/
theorem exec_thumb_cpuInv {i : Instr} {x : Half} {s t : State} (hi : encode i = .thumb x) (h : CpuInvIn true s)
    (e : exec i s = .next t) : CpuInv t := by
  cases i <;> rw [exec] at e
  case thumbLslImm | thumbLsrImm | thumbAsrImm | thumbLslReg | thumbLsrReg | thumbAsrReg | thumbRorReg =>
    cases e; exact h.shifted _ _
  case thumbAddReg | thumbSubReg | thumbAddImm3 | thumbSubImm3 | thumbAddImm8 | thumbSubImm8 | thumbAdc | thumbSbc |
      thumbNeg =>
    cases e; exact h.arithmetic _ _
  case thumbMovImm | thumbAnd | thumbEor | thumbOrr | thumbBic | thumbMvn => cases e; exact h.logical _ _
  case thumbCmpImm | thumbCmpReg | thumbCmn => cases e; exact h.compare _
  case thumbTst => cases e; exact h.next2 (hc := rfl)
  case thumbMul =>
    refine Answers.outcome (.refuseIf fun _ => .ok ?_) e
    exact h.next2 (hc := rfl)
  case thumbAddHi | thumbMovHi => exact Answers.outcome (.refuseIf fun _ => .ok (h.hiWrite _ _)) e
  case thumbCmpHi => exact Answers.outcome (.refuseIf fun _ => .ok (h.compare _)) e
  case thumbBx => exact Answers.outcome (.refuseIf fun _ => h.toStorageInv.branchExchange _) e
  case thumbAddPc | thumbAddSp | thumbAddSpImm | thumbSubSpImm | thumbBlHi => cases e; exact h.moveTo _ _
  case thumbBlLo => cases e; exact (h.writeReg _ _).branchThumb _
  case thumbStrReg | thumbStrbReg | thumbStrImm | thumbStrbImm | thumbStrSp =>
    exact Answers.outcome (h.thumbStore _ _ _) e
  case thumbStrhReg | thumbStrhImm => exact Answers.outcome (h.thumbStoreHalf _ _) e
  case thumbLdrPc | thumbLdrReg | thumbLdrImm | thumbLdrSp => exact Answers.outcome (h.thumbLoadWord _ _) e
  case thumbLdrhReg | thumbLdshReg | thumbLdrhImm | thumbLdrbReg | thumbLdsbReg | thumbLdrbImm =>
    exact Answers.outcome (h.thumbLoad _ _ _ _) e
  case thumbPush | thumbPushLr => exact Answers.outcome (h.push _) e
  case thumbPop | thumbPopPc => exact Answers.outcome (h.pop _) e
  case thumbStmia => exact Answers.outcome (h.stmia _ _) e
  case thumbLdmia => exact Answers.outcome (h.ldmia _ _) e
  case thumbBeq | thumbBne | thumbBcs | thumbBcc | thumbBmi | thumbBpl | thumbBvs | thumbBvc | thumbBhi | thumbBls |
      thumbBge | thumbBlt | thumbBgt | thumbBle =>
    cases e; exact h.condBranch _ _
  case thumbB off11 => cases e; exact h.jump (alignedFor_thumbTarget h.pc_aligned off11 (by decide))
  case thumbSwi | thumbUndefCond | thumbUndefLong | thumbUndefMisc =>
    cases e; exact h.toStorageInv.enterException _ _
  all_goals cases hi

/-! ### The decoder that T selects (10_state R67) -/

/-- An instruction of the ARM set: it has a 32-bit code. -/
def IsArm (i : Instr) : Prop := ∃ w, encode i = .arm w

/-- An instruction of the Thumb set: it has a 16-bit code. -/
def IsThumb (i : Instr) : Prop := ∃ x, encode i = .thumb x

section
variable (c : Cond) (w : Word)

theorem isArm_cond {b : Bool} {i j : Instr} (h : IsArm i) (g : IsArm j) : IsArm (bif b then i else j) := by
  cases b
  · exact g
  · exact h

theorem isArm_decodeMultiply : IsArm (decodeMultiply c w) := isArm_cond ⟨_, rfl⟩ ⟨_, rfl⟩

theorem isArm_decodeMultiplyLong : IsArm (decodeMultiplyLong c w) := by
  unfold decodeMultiplyLong
  split <;> exact ⟨_, rfl⟩

theorem isArm_decodeSwap : IsArm (decodeSwap c w) := isArm_cond ⟨_, rfl⟩ ⟨_, rfl⟩

theorem isArm_decodeHalfwordSpace : IsArm (decodeHalfwordSpace c w) := by
  unfold decodeHalfwordSpace
  split <;> exact ⟨_, rfl⟩

theorem isArm_decodeMiscSpace : IsArm (decodeMiscSpace c w) :=
  isArm_cond (isArm_cond ⟨_, rfl⟩ ⟨_, rfl⟩) (isArm_cond ⟨_, rfl⟩ ⟨_, rfl⟩)

theorem isArm_decodeDataProcessing : IsArm (decodeDataProcessing c w) := by
  unfold decodeDataProcessing
  split <;> exact ⟨_, rfl⟩

theorem isArm_decodeSingleTransfer : IsArm (decodeSingleTransfer c w) := by
  unfold decodeSingleTransfer
  dsimp only
  split <;> exact ⟨_, rfl⟩

theorem isArm_decodeBlockTransfer : IsArm (decodeBlockTransfer c w) := by
  unfold decodeBlockTransfer
  split <;> exact ⟨_, rfl⟩

theorem isArm_decodeCoprocessorOperation : IsArm (decodeCoprocessorOperation c w) := by
  unfold decodeCoprocessorOperation
  split <;> exact ⟨_, rfl⟩

theorem isArm_decodeTransferSpace : IsArm (decodeTransferSpace c w) := by
  unfold decodeTransferSpace
  split
  · exact isArm_cond ⟨_, rfl⟩ (isArm_decodeSingleTransfer c w)
  · exact isArm_decodeSingleTransfer c w
  · exact isArm_decodeBlockTransfer c w
  · exact isArm_cond ⟨_, rfl⟩ ⟨_, rfl⟩
  · exact isArm_cond ⟨_, rfl⟩ ⟨_, rfl⟩
  · exact isArm_cond ⟨_, rfl⟩ (isArm_decodeCoprocessorOperation c w)

end

theorem isArm_decodeArm (w : Word) : IsArm (decodeArm w) :=
  isArm_cond ⟨_, rfl⟩ <| isArm_cond (isArm_decodeMultiply _ w) <| isArm_cond (isArm_decodeMultiplyLong _ w) <|
    isArm_cond (isArm_decodeSwap _ w) <| isArm_cond (isArm_decodeHalfwordSpace _ w) <|
    isArm_cond (isArm_decodeMiscSpace _ w) <| isArm_cond (isArm_decodeDataProcessing _ w) <|
    isArm_decodeTransferSpace _ w

section
variable (x : Half)

theorem isThumb_decodeThumbShiftAdd : IsThumb (decodeThumbShiftAdd x) := by
  unfold decodeThumbShiftAdd
  split <;> exact ⟨_, rfl⟩

theorem isThumb_decodeThumbImm8 : IsThumb (decodeThumbImm8 x) := by
  unfold decodeThumbImm8
  split <;> exact ⟨_, rfl⟩

theorem isThumb_decodeThumbAlu : IsThumb (decodeThumbAlu x) := by
  unfold decodeThumbAlu
  split <;> exact ⟨_, rfl⟩

theorem isThumb_decodeThumbHi : IsThumb (decodeThumbHi x) := by
  unfold decodeThumbHi
  split <;> exact ⟨_, rfl⟩

theorem isThumb_decodeThumbRegOffset : IsThumb (decodeThumbRegOffset x) := by
  unfold decodeThumbRegOffset
  split <;> exact ⟨_, rfl⟩

theorem isThumb_decodeThumb01 : IsThumb (decodeThumb01 x) := by
  unfold decodeThumb01
  split
  · exact isThumb_decodeThumbAlu x
  · exact isThumb_decodeThumbHi x
  · exact ⟨_, rfl⟩
  · exact isThumb_decodeThumbRegOffset x
  all_goals exact ⟨_, rfl⟩

theorem isThumb_decodeThumbMisc : IsThumb (decodeThumbMisc x) := by
  unfold decodeThumbMisc
  split
  · cases x.getLsbD 7 <;> exact ⟨_, rfl⟩
  all_goals exact ⟨_, rfl⟩

theorem isThumb_decodeThumb10 : IsThumb (decodeThumb10 x) := by
  unfold decodeThumb10
  split
  case h_7 => exact isThumb_decodeThumbMisc x
  all_goals exact ⟨_, rfl⟩

theorem isThumb_decodeThumbCond : IsThumb (decodeThumbCond x) := by
  unfold decodeThumbCond
  split <;> exact ⟨_, rfl⟩

theorem isThumb_decodeThumb11 : IsThumb (decodeThumb11 x) := by
  unfold decodeThumb11
  split
  case h_3 => exact isThumb_decodeThumbCond x
  all_goals exact ⟨_, rfl⟩

theorem isThumb_decodeThumb : IsThumb (decodeThumb x) := by
  unfold decodeThumb
  split
  · exact isThumb_decodeThumbShiftAdd x
  · exact isThumb_decodeThumbImm8 x
  · exact isThumb_decodeThumb01 x
  · exact isThumb_decodeThumb10 x
  · exact isThumb_decodeThumb11 x

end

/-! ### The CPU's turn -/

theorem fetchInstr_isArm {s : State} (ht : s.cpsr.t = false) : IsArm s.fetchInstr := by
  unfold State.fetchInstr
  rw [if_neg (by simp [ht])]
  exact isArm_decodeArm _

theorem fetchInstr_isThumb {s : State} (ht : s.cpsr.t = true) : IsThumb s.fetchInstr := by
  unfold State.fetchInstr
  rw [if_pos ht]
  exact isThumb_decodeThumb _

theorem FrameInv.congr {s t : State} (h : FrameInv s) (ho : t.objMeta = s.objMeta) (hl : t.line = s.line)
    (hp : t.phase = s.phase) : FrameInv t where
  objMeta := ho ▸ h.objMeta
  rendered := hl ▸ hp ▸ h.rendered

/-- The instruction at the PC keeps its part of the invariant, for T selects both the decoder and the alignment. -/
theorem exec_fetchInstr_cpuInv {s u t : State} (h : CpuInv u) (e : exec s.fetchInstr u = .next t)
    (hc : u.cpsr = s.cpsr) : CpuInv t := by
  cases ht : s.cpsr.t
  · obtain ⟨w, hw⟩ := fetchInstr_isArm ht
    exact exec_arm_cpuInv hw ⟨h, by rw [hc, ht]⟩ e
  · obtain ⟨x, hx⟩ := fetchInstr_isThumb ht
    exact exec_thumb_cpuInv hx ⟨h, by rw [hc, ht]⟩ e

theorem runInstr_inv {s t : State} (h : s.Inv) (e : runInstr s.fetchInstr s = .next t) : t.Inv := by
  obtain ⟨hcpu, hframe⟩ := (inv_iff s).mp h
  unfold runInstr at e
  split at e
  · cases e
  · have hbegin : CpuInv (s.beginInstr s.fetchInstr) := ⟨hcpu.toStorageInv.congr, hcpu.pc⟩
    have hk := exec_keepsDriver _ _ t e
    exact (inv_iff t).mpr ⟨exec_fetchInstr_cpuInv hbegin e rfl, hframe.congr hk.objMeta hk.line hk.phase⟩

theorem cpuStep_inv {s t : State} (h : s.Inv) (e : cpuStep s = .next t) : t.Inv := by
  obtain ⟨hcpu, hframe⟩ := (inv_iff s).mp h
  have htick : StorageInv s.tick := hcpu.toStorageInv.congr
  unfold cpuStep at e
  split at e
  · cases e
    have hirq : CpuInv s.tick.takeIrq := htick.enterException .irq _
    exact (inv_iff _).mpr ⟨⟨hirq.toStorageInv.congr rfl rfl rfl, hirq.pc⟩,
      hframe.congr (enterException_objMeta ..) (enterException_line ..) (enterException_phase ..)⟩
  · split at e
    · exact runInstr_inv ((inv_iff _).mpr ⟨⟨htick, hcpu.pc⟩, hframe.congr rfl rfl rfl⟩) e
    · cases e

end Sys2Proof.Proofs
end

section
/-! PROOFS. The turns of the environment and the renderer, and the step as a whole (00_scope R6, R7;
70_reset_and_hazards R950). -/

namespace Sys2Proof.Proofs

open Sys2Proof.Machine Sys2Proof.Statements

/-! ### The environment's turn (00_scope R7) -/

theorem CpuInv.setIoRaw {s : State} (h : CpuInv s) (r : IoReg) (v : Half) (hv : v &&& ~~~r.storable = 0#16)
    (hl : r = .vcount → v.toNat < 228) : CpuInv (s.setIoRaw r v) := ⟨h.toStorageInv.setIoRaw r v hv hl, h.pc⟩

theorem inv_memWrite {s : State} (h : s.Inv) (w : Width) (a v : Word) : (s.memWrite w a v).Inv := by
  obtain ⟨hcpu, hframe⟩ := (inv_iff s).mp h
  obtain ⟨-, -, -, hk⟩ := memWrite_keeps s w a v
  exact (inv_iff _).mpr ⟨hcpu.memWrite w a v, hframe.congr hk.objMeta hk.line hk.phase⟩

/-- Counting cycles and draws changes nothing the invariant speaks of. -/
theorem inv_countAccess {s : State} (h : s.Inv) : s.countAccess.Inv :=
  ⟨h.memory, h.pc, h.spsrs, h.io, h.vcount, h.objMeta, h.rendered⟩

theorem dmaStep_inv {s : State} (h : s.Inv) (op : DmaOp) : Answers State.Inv (s.dmaStep op) := by
  cases op with
  | read w a =>
    intro t e
    cases hl : s.load w a with
    | error r => rw [State.dmaStep, hl] at e; cases e
    | ok v => rw [State.dmaStep, hl] at e; cases e; exact inv_countAccess h
  | write w a v => exact .refuseIf fun _ => .refuseIf fun _ => .ok (inv_countAccess (inv_memWrite h w a v))

theorem dma_inv {s : State} (h : s.Inv) (ops : List DmaOp) : Answers State.Inv (s.dma ops) := by
  induction ops generalizing s with
  | nil => exact .ok h
  | cons op ops ih => exact .bind (dmaStep_inv h op) fun _ ht => ih ht

/-- A later reset has the invariant: the images stay in canonical form, VCOUNT and KEYINPUT keep their bits. -/
theorem powerOn_inv {s : State} (h : s.Inv) : s.powerOn.Inv where
  memory := wf_filter s.mem _ h.memory
  pc := resetHasInvariant.pc
  spsrs := resetHasInvariant.spsrs
  io r := by
    rw [ioRaw_powerOn]
    split
    · next e => exact e ▸ h.io .keyinput
    · split
      · next e => exact e ▸ h.io .vcount
      · exact BitVec.zero_and
  vcount := by
    rw [ioRaw_powerOn]
    exact h.vcount
  objMeta := resetHasInvariant.objMeta
  rendered := resetHasInvariant.rendered

/-- Bits taken through a mask that a granule holds. -/
theorem masked_storable (r : IoReg) {mask : Half} (h : mask &&& ~~~r.storable = 0#16) (v : Half) :
    (v &&& mask) &&& ~~~r.storable = 0#16 := by
  rw [BitVec.and_assoc, h, BitVec.and_zero]

theorem or_storable (r : IoReg) {v w : Half} (hv : v &&& ~~~r.storable = 0#16) (hw : w &&& ~~~r.storable = 0#16) :
    (v ||| w) &&& ~~~r.storable = 0#16 := by
  rw [BitVec.and_or_distrib_right, hv, hw, BitVec.or_zero]

theorem envAction_inv {s : State} (h : s.Inv) (a : EnvAction) : Answers State.Inv (s.envAction a) := by
  obtain ⟨hcpu, hframe⟩ := (inv_iff s).mp h
  have set (r : IoReg) (v : Half) (hv : v &&& ~~~r.storable = 0#16) (hl : r = .vcount → v.toNat < 228) :
      Answers State.Inv (.ok (s.setIoRaw r v)) :=
    .ok ((inv_iff _).mpr ⟨hcpu.setIoRaw r v hv hl, hframe.congr rfl rfl rfl⟩)
  cases a with
  | requestIrq bits => exact set .if_ _ (or_storable .if_ (h.io .if_) (masked_storable .if_ rfl bits)) (by simp)
  | setVcount line =>
    exact set .vcount _ (by revert line; decide +kernel) fun _ =>
      (BitVec.toNat_ofNat ..).trans_lt ((Nat.mod_le ..).trans_lt line.isLt)
  | setDispstatFlags vb hb vc =>
    refine set .dispstat _ ?_ (by simp)
    rw [dispstatWithFlags_eq]
    refine or_storable .dispstat ?_ (by revert vb hb vc; decide)
    rw [BitVec.and_comm (s.ioRaw .dispstat)]
    exact masked_storable .dispstat (h.io .dispstat) _
  | setKeyinput keys => exact set .keyinput _ (masked_storable .keyinput rfl keys) (by simp)
  | dma ops => exact dma_inv h ops
  | reset => exact .ok (powerOn_inv h)

/-! ### The renderer's turn (47_compositor R700) -/

/-- The top bits of a metadata byte are 0 (10_state R70). -/
theorem metaByte_unused (c : ObjCell) : c.metaByte.extractLsb' 5 3 = 0#3 := by
  apply BitVec.eq_of_getLsbD_eq
  intro i hi
  simp only [ObjCell.metaByte, BitVec.getLsbD_extractLsb', BitVec.getLsbD_append]
  interval_cases i <;> simp

theorem rendered_inv {s : State} (h : CpuInv s) (hl : s.line.val < 160) (y : Fin 160) : (s.rendered y).Inv := by
  have hk := rendered_keeps s y
  refine (inv_iff _).mpr ⟨⟨h.toStorageInv.congr hk.mem hk.spsrs hk.io, ?_⟩, fun x => ?_, fun _ => ?_⟩
  · rw [hk.cpsr, hk.pc]
    exact h.pc
  · rw [(rendered_sprites s y x).2]
    exact metaByte_unused _
  · rw [hk.line]
    exact hl

/-! ### Every turn -/

theorem openedTurn_inv {s : State} (h : s.Inv) (rest : List Turn) : (openedTurn s rest).Inv :=
  ⟨h.memory, h.pc, h.spsrs, h.io, h.vcount, h.objMeta, fun hp => by cases hp⟩

theorem actedTurn_inv {s : State} (h : s.Inv) (rest : List Turn) : (actedTurn s rest).Inv :=
  ⟨h.memory, h.pc, h.spsrs, h.io, h.vcount, h.objMeta, fun hp => h.rendered (by
    have hp : (if s.phase = .budget then LinePhase.acted else s.phase) = .effects := hp
    split at hp
    · cases hp
    · exact hp)⟩

/-- Settles O48, by the agent whose turn it is: a CPU step by its IRQ entry or its instruction, the others by the
pieces of state they set. -/
theorem stepKeepsInvariant : Obligations.StepKeepsInvariant := by
  unfold Obligations.StepKeepsInvariant
  intro s t h e
  cases hs : s.schedule with
  | nil => exact cpuStep_inv (openedTurn_inv h []) ((step_cpuTurn (.inl ⟨hs, rfl⟩)).symm.trans e)
  | cons turn rest =>
    cases turn with
    | cpu => exact cpuStep_inv (openedTurn_inv h rest) ((step_cpuTurn (.inr ⟨rest, hs, rfl⟩)).symm.trans e)
    | render y =>
      rw [step_render s y rest hs] at e
      split at e
      · next hy =>
        have hcpu := ((inv_iff s).mp h).1
        have hnext := rendered_inv (s := { s with schedule := rest, phase := .effects, draws := s.draws + 1 })
          ⟨hcpu.toStorageInv.congr, hcpu.pc⟩ (hy.1 ▸ y.isLt) y
        exact Answers.outcome (.refuseIf fun _ => .refuseIf fun _ => .ok hnext) e
      · cases e
    | env a =>
      rw [step_env_actedTurn s a rest hs] at e
      exact (envAction_inv (actedTurn_inv h rest) a).outcome e
    | endLine =>
      rw [step_endLine s rest hs] at e
      split at e
      · cases e
      · cases e
        exact ⟨h.memory, h.pc, h.spsrs, h.io, h.vcount, h.objMeta, fun hp => by cases hp⟩

end Sys2Proof.Proofs
end

section
/-! PROOFS. Decoding gives back what was encoded, format by format (30_encoding R252, R253, R291, R292; 20_memory
R151). -/

namespace Sys2Proof.Proofs

open Sys2Proof.Machine Sys2Proof.Statements

/-! ### Bits and fields of an encoding -/

/-- A bit or a field of two fields side by side lies in the low or in the high one. The width is left out of what `simp`
looks the rule up by (`no_index`): an encoding has it as a numeral, 32 or 16, and not as a sum. -/
theorem read_append {n m : Nat} (x : BitVec n) (y : BitVec m) :
    (∀ i, i < m → BitVec.getLsbD (w := no_index (n + m)) (x ++ y) i = y.getLsbD i) ∧
    (∀ i, m ≤ i → BitVec.getLsbD (w := no_index (n + m)) (x ++ y) i = x.getLsbD (i - m)) ∧
    (∀ i k, i + k ≤ m → BitVec.extractLsb' (n := no_index (n + m)) i k (x ++ y) = y.extractLsb' i k) ∧
    ∀ i k, m ≤ i → BitVec.extractLsb' (n := no_index (n + m)) i k (x ++ y) = x.extractLsb' (i - m) k :=
  ⟨fun i h => by rw [BitVec.getLsbD_append, if_pos h], fun i h => by rw [BitVec.getLsbD_append, if_neg (by omega)],
    fun _ _ h => BitVec.extractLsb'_append_eq_of_add_le h, fun _ _ h => BitVec.extractLsb'_append_eq_of_le h⟩

/-- A field read whole is its value. -/
theorem read_whole : (∀ (n : Nat) (x : BitVec n), x.extractLsb' 0 n = x) ∧
    (∀ b : Bool, (BitVec.ofBool b).getLsbD 0 = b) ∧ (∀ c : Cond, Cond.ofBits c.toBits = c) ∧
    ∀ k : ShiftKind, ShiftKind.ofBits k.toBits = k := by
  refine ⟨fun _ _ => BitVec.extractLsb'_eq_self, fun b => ?_, fun c => ?_, fun k => ?_⟩
  · cases b <;> rfl
  · cases c <;> rfl
  · cases k <;> rfl

theorem ofBool_append_low (r : RegNum) : BitVec.ofBool (r.getLsbD 3) ++ r.extractLsb' 0 3 = r := by
  revert r; decide

/-! ### The ARM decode function (30_encoding R252) -/

/-- R252 as a tree that asks for a bit only where the formats reached there fix it: so it evaluates on an encoding
whatever the operands are. -/
theorem decodeArm_eq_tree (w : Word) : decodeArm w =
    bif w.getLsbD 27 || w.getLsbD 26 then decodeTransferSpace (Cond.ofBits (w.extractLsb' 28 4)) w
    else bif !w.getLsbD 25 && (w.getLsbD 4 && w.getLsbD 7) then
      bif w.getLsbD 6 || w.getLsbD 5 then decodeHalfwordSpace (Cond.ofBits (w.extractLsb' 28 4)) w
      else bif !w.getLsbD 24 && !w.getLsbD 23 && !w.getLsbD 22 then decodeMultiply (Cond.ofBits (w.extractLsb' 28 4)) w
      else bif !w.getLsbD 24 && w.getLsbD 23 then decodeMultiplyLong (Cond.ofBits (w.extractLsb' 28 4)) w
      else bif w.getLsbD 24 && !w.getLsbD 23 && !w.getLsbD 21 && !w.getLsbD 20 then
        decodeSwap (Cond.ofBits (w.extractLsb' 28 4)) w
      else decodeHalfwordSpace (Cond.ofBits (w.extractLsb' 28 4)) w
    else bif w.getLsbD 24 && !w.getLsbD 23 && !w.getLsbD 20 then
      bif !w.getLsbD 25 &&
        (!w.getLsbD 7 && !w.getLsbD 6 && !w.getLsbD 5 && w.getLsbD 4 && (!w.getLsbD 22 && w.getLsbD 21)) then
        .armBx (Cond.ofBits (w.extractLsb' 28 4)) (w.extractLsb' 8 12) (w.extractLsb' 0 4)
      else decodeMiscSpace (Cond.ofBits (w.extractLsb' 28 4)) w
    else decodeDataProcessing (Cond.ofBits (w.extractLsb' 28 4)) w := by
  simp only [decodeArm, isBxIndex, isMultiply, isMultiplyLong, isSwap, isHalfwordSpace, isMiscSpace, mulNibble]
  generalize w.getLsbD 27 = b27, w.getLsbD 26 = b26, w.getLsbD 25 = b25, w.getLsbD 24 = b24, w.getLsbD 23 = b23,
    w.getLsbD 22 = b22, w.getLsbD 21 = b21, w.getLsbD 20 = b20, w.getLsbD 7 = b7, w.getLsbD 6 = b6, w.getLsbD 5 = b5,
    w.getLsbD 4 = b4
  cases b27
  case true => rfl
  cases b26
  case true => simp
  cases b25
  case true => simp
  cases b4
  case false => simp
  cases b6
  case true => simp
  cases b5
  case true => simp
  cases b7
  · cases b24 <;> cases b23 <;> cases b20 <;> simp
  · cases b24 <;> cases b23 <;> simp

/-! ### ARM formats: the codes of their instructions, as listed -/

section
variable (c : Cond)

theorem decodeArm_encodeDataProcessing (s : Bool) (rn rd : RegNum) (op2 : Operand2) :
    ∀ mk op, (mk, op) ∈
      [(Instr.armAnd, 0#4), (Instr.armEor, 1#4), (Instr.armSub, 2#4), (Instr.armRsb, 3#4), (Instr.armAdd, 4#4),
        (Instr.armAdc, 5#4), (Instr.armSbc, 6#4), (Instr.armRsc, 7#4), (Instr.armOrr, 12#4), (Instr.armMov, 13#4),
        (Instr.armBic, 14#4), (Instr.armMvn, 15#4)] →
      decodeArm (encodeDataProcessing c op s rn rd op2) = mk c s rn rd op2 := by
  intro mk op h
  cases op2
  all_goals
    simp (disch := decide) only [decodeArm_eq_tree, encodeDataProcessing, decodeDataProcessing, decodeOperand2,
      read_append, read_whole, Nat.reduceSub]
    fin_cases h <;> rfl

theorem decodeArm_encodeDataProcessing_test (rn rd : RegNum) (op2 : Operand2) :
    ∀ mk op, (mk, op) ∈ [(Instr.armTst, 8#4), (Instr.armTeq, 9#4), (Instr.armCmp, 10#4), (Instr.armCmn, 11#4)] →
      decodeArm (encodeDataProcessing c op true rn rd op2) = mk c rn rd op2 := by
  intro mk op h
  cases op2
  all_goals
    simp (disch := decide) only [decodeArm_eq_tree, encodeDataProcessing, decodeDataProcessing, decodeOperand2,
      read_append, read_whole, Nat.reduceSub]
    fin_cases h <;> rfl

theorem decodeCode_encode_armMrs (spsr : Bool) (sbo rd sbzHigh sbzLow : BitVec 4) :
    decodeCode (encode (.armMrs c spsr sbo rd sbzHigh sbzLow)) = .armMrs c spsr sbo rd sbzHigh sbzLow := by
  change decodeArm _ = _
  simp (disch := decide) only [decodeArm_eq_tree, decodeMiscSpace, zeroNibble, read_append, read_whole, Nat.reduceSub]
  rfl

theorem decodeCode_encode_armMsrReg (spsr : Bool) (mask sbo sbz rm : BitVec 4) :
    decodeCode (encode (.armMsrReg c spsr mask sbo sbz rm)) = .armMsrReg c spsr mask sbo sbz rm := by
  change decodeArm _ = _
  simp (disch := decide) only [decodeArm_eq_tree, decodeMiscSpace, zeroNibble, read_append, read_whole, Nat.reduceSub]
  rfl

theorem decodeCode_encode_armMsrImm (spsr : Bool) (mask sbo rot : BitVec 4) (imm8 : BitVec 8) :
    decodeCode (encode (.armMsrImm c spsr mask sbo rot imm8)) = .armMsrImm c spsr mask sbo rot imm8 := by
  change decodeArm _ = _
  simp (disch := decide) only [decodeArm_eq_tree, decodeMiscSpace, zeroNibble, read_append, read_whole, Nat.reduceSub]
  rfl

theorem decodeArm_encodeMultiply (s : Bool) (rd rn rs rm : RegNum) :
    ∀ mk a, (mk, a) ∈ [(Instr.armMul, false), (Instr.armMla, true)] →
      decodeArm (encodeMultiply c a s rd rn rs rm) = mk c s rd rn rs rm := by
  intro mk a h
  simp (disch := decide) only [decodeArm_eq_tree, encodeMultiply, decodeMultiply, read_append, read_whole,
    Nat.reduceSub]
  fin_cases h <;> rfl

theorem decodeArm_encodeMultiplyLong (s : Bool) (rdHi rdLo rs rm : RegNum) :
    ∀ mk signed a, (mk, signed, a) ∈
      [(Instr.armUmull, false, false), (Instr.armUmlal, false, true), (Instr.armSmull, true, false),
        (Instr.armSmlal, true, true)] →
      decodeArm (encodeMultiplyLong c signed a s rdHi rdLo rs rm) = mk c s rdHi rdLo rs rm := by
  intro mk signed a h
  simp (disch := decide) only [decodeArm_eq_tree, encodeMultiplyLong, decodeMultiplyLong, read_append, read_whole,
    Nat.reduceSub]
  fin_cases h <;> rfl

theorem decodeArm_encodeSwap (rn rd sbz rm : RegNum) :
    ∀ mk b, (mk, b) ∈ [(Instr.armSwp, false), (Instr.armSwpb, true)] →
      decodeArm (encodeSwap c b rn rd sbz rm) = mk c rn rd sbz rm := by
  intro mk b h
  simp (disch := decide) only [decodeArm_eq_tree, encodeSwap, decodeSwap, read_append, read_whole, Nat.reduceSub]
  fin_cases h <;> rfl

theorem decodeArm_encodeHalfword (p u w : Bool) (rn rd hi lo : RegNum) :
    ∀ mk i l sh, (mk, i, l, sh) ∈
      [(Instr.armStrhReg, false, false, 1#2), (Instr.armStrhImm, true, false, 1#2),
        (Instr.armLdrhReg, false, true, 1#2), (Instr.armLdrhImm, true, true, 1#2),
        (Instr.armLdrsbReg, false, true, 2#2), (Instr.armLdrsbImm, true, true, 2#2),
        (Instr.armLdrshReg, false, true, 3#2), (Instr.armLdrshImm, true, true, 3#2)] →
      decodeArm (encodeHalfword c p u i w l rn rd hi sh lo) = mk c p u w rn rd hi lo := by
  intro mk i l sh h
  simp (disch := decide) only [decodeArm_eq_tree, encodeHalfword, decodeHalfwordSpace, read_append, read_whole,
    Nat.reduceSub]
  fin_cases h <;> rfl

theorem decodeCode_encode_armStrhDspace (puiw : BitVec 4) (mid : BitVec 12) (sh0 : Bool) (low : BitVec 4) :
    decodeCode (encode (.armStrhDspace c puiw mid sh0 low)) = .armStrhDspace c puiw mid sh0 low := by
  change decodeArm _ = _
  simp (disch := decide) only [decodeArm_eq_tree, decodeHalfwordSpace, read_append, read_whole, Nat.reduceSub]
  cases sh0 <;> rfl

/-- Bits 24..20 of an Undefined word of the multiply space fail the tests of R252 lines 2, 3 and 4. -/
theorem mulspaceUndefined_iff : ∀ high : BitVec 5, mulspaceUndefined high = true ↔
    (!high.getLsbD 4 && !high.getLsbD 3 && !high.getLsbD 2) = false ∧ (!high.getLsbD 4 && high.getLsbD 3) = false ∧
      (high.getLsbD 4 && !high.getLsbD 3 && !high.getLsbD 1 && !high.getLsbD 0) = false := by
  decide

theorem decodeCode_encode_armUndefMulspace (high : BitVec 5) (mid : BitVec 12) (low : BitVec 4)
    (h : mulspaceUndefined high = true) :
    decodeCode (encode (.armUndefMulspace c high mid low)) = .armUndefMulspace c high mid low := by
  obtain ⟨hmul, hlong, hswap⟩ := (mulspaceUndefined_iff high).mp h
  change decodeArm _ = _
  simp (disch := decide) only [decodeArm_eq_tree, decodeHalfwordSpace, read_append, read_whole, Nat.reduceSub, hmul,
    hlong, hswap]
  rfl

/-- Bits 7..4 of an Undefined word of the miscellaneous space, the register forms, are none of BX, the multiply and
halfword space, MRS and MSR (R252 lines 1, 5 and 6). -/
theorem miscUndefined_iff (op : BitVec 2) (rest : BitVec 20) : miscUndefined false op rest = true ↔
    (rest.getLsbD 4 && rest.getLsbD 7) = false ∧
      (!rest.getLsbD 7 && !rest.getLsbD 6 && !rest.getLsbD 5 && rest.getLsbD 4 && (!op.getLsbD 1 && op.getLsbD 0)) =
        false ∧
      (!rest.getLsbD 7 && !rest.getLsbD 6 && !rest.getLsbD 5 && !rest.getLsbD 4) = false := by
  have bit (k : Nat) (hk : k < 4) : rest.getLsbD (4 + k) = (rest.extractLsb' 4 4).getLsbD k := by
    rw [BitVec.getLsbD_extractLsb', decide_eq_true hk, Bool.true_and]
  rw [miscUndefined, bit 0 (by decide), bit 1 (by decide), bit 2 (by decide), bit 3 (by decide)]
  generalize rest.extractLsb' 4 4 = nibble
  revert op nibble
  decide

theorem decodeCode_encode_armUndefMisc (imm : Bool) (op : BitVec 2) (rest : BitVec 20)
    (h : miscUndefined imm op rest = true) :
    decodeCode (encode (.armUndefMisc c imm op rest)) = .armUndefMisc c imm op rest := by
  change decodeArm _ = _
  cases imm with
  | true =>
    have hop : op.getLsbD 0 = false := Bool.eq_false_of_not_eq_true' h
    simp (disch := decide) only [decodeArm_eq_tree, decodeMiscSpace, zeroNibble, read_append, read_whole, Nat.reduceSub,
      hop]
    rfl
  | false =>
    obtain ⟨hspace, hbx, hzero⟩ := (miscUndefined_iff op rest).mp h
    simp (disch := decide) only [decodeArm_eq_tree, decodeMiscSpace, zeroNibble, read_append, read_whole, Nat.reduceSub,
      hspace, hbx, hzero]
    rfl

theorem decodeArm_encodeTransferImm_pre (u w : Bool) (rn rd : RegNum) (imm12 : BitVec 12) :
    ∀ mk b l, (mk, b, l) ∈
      [(Instr.armStrImmPre, false, false), (Instr.armLdrImmPre, false, true), (Instr.armStrbImmPre, true, false),
        (Instr.armLdrbImmPre, true, true)] →
      decodeArm (encodeTransferImm c true u b w l rn rd imm12) = mk c u w rn rd imm12 := by
  intro mk b l h
  simp (disch := decide) only [decodeArm_eq_tree, decodeTransferSpace, decodeSingleTransfer, encodeTransferImm,
    read_append, read_whole, Nat.reduceSub]
  fin_cases h <;> rfl

theorem decodeArm_encodeTransferImm_post (u : Bool) (rn rd : RegNum) (imm12 : BitVec 12) :
    ∀ mk b w l, (mk, b, w, l) ∈
      [(Instr.armStrImmPost, false, false, false), (Instr.armStrtImm, false, true, false),
        (Instr.armLdrImmPost, false, false, true), (Instr.armLdrtImm, false, true, true),
        (Instr.armStrbImmPost, true, false, false), (Instr.armStrbtImm, true, true, false),
        (Instr.armLdrbImmPost, true, false, true), (Instr.armLdrbtImm, true, true, true)] →
      decodeArm (encodeTransferImm c false u b w l rn rd imm12) = mk c u rn rd imm12 := by
  intro mk b w l h
  simp (disch := decide) only [decodeArm_eq_tree, decodeTransferSpace, decodeSingleTransfer, encodeTransferImm,
    read_append, read_whole, Nat.reduceSub]
  fin_cases h <;> rfl

theorem decodeArm_encodeTransferReg_pre (u w : Bool) (rn rd : RegNum) (amount : BitVec 5) (kind : ShiftKind)
    (rm : RegNum) :
    ∀ mk b l, (mk, b, l) ∈
      [(Instr.armStrRegPre, false, false), (Instr.armLdrRegPre, false, true), (Instr.armStrbRegPre, true, false),
        (Instr.armLdrbRegPre, true, true)] →
      decodeArm (encodeTransferReg c true u b w l rn rd amount kind rm) = mk c u w rn rd amount kind rm := by
  intro mk b l h
  simp (disch := decide) only [decodeArm_eq_tree, decodeTransferSpace, decodeSingleTransfer, encodeTransferReg,
    read_append, read_whole, Nat.reduceSub]
  fin_cases h <;> rfl

theorem decodeArm_encodeTransferReg_post (u : Bool) (rn rd : RegNum) (amount : BitVec 5) (kind : ShiftKind)
    (rm : RegNum) :
    ∀ mk b w l, (mk, b, w, l) ∈
      [(Instr.armStrRegPost, false, false, false), (Instr.armStrtReg, false, true, false),
        (Instr.armLdrRegPost, false, false, true), (Instr.armLdrtReg, false, true, true),
        (Instr.armStrbRegPost, true, false, false), (Instr.armStrbtReg, true, true, false),
        (Instr.armLdrbRegPost, true, false, true), (Instr.armLdrbtReg, true, true, true)] →
      decodeArm (encodeTransferReg c false u b w l rn rd amount kind rm) = mk c u rn rd amount kind rm := by
  intro mk b w l h
  simp (disch := decide) only [decodeArm_eq_tree, decodeTransferSpace, decodeSingleTransfer, encodeTransferReg,
    read_append, read_whole, Nat.reduceSub]
  fin_cases h <;> rfl

theorem decodeCode_encode_armUndefA14 (high : BitVec 20) (low : BitVec 4) :
    decodeCode (encode (.armUndefA14 c high low)) = .armUndefA14 c high low := by
  change decodeArm _ = _
  simp (disch := decide) only [decodeArm_eq_tree, decodeTransferSpace, read_append, read_whole, Nat.reduceSub]
  rfl

theorem decodeArm_encodeBlockTransfer (p u w : Bool) (rn : RegNum) (rlist : BitVec 16) :
    ∀ mk s l, (mk, s, l) ∈
      [(Instr.armStm, false, false), (Instr.armStmUser, true, false), (Instr.armLdm, false, true),
        (Instr.armLdmUser, true, true)] →
      decodeArm (encodeBlockTransfer c p u s w l rn rlist) = mk c p u w rn rlist := by
  intro mk s l h
  simp (disch := decide) only [decodeArm_eq_tree, decodeTransferSpace, encodeBlockTransfer, decodeBlockTransfer,
    read_append, read_whole, Nat.reduceSub]
  fin_cases h <;> rfl

theorem decodeCode_encode_branchOrSwi (x : BitVec 24) :
    ∀ i ∈ [Instr.armB c x, .armBl c x, .armSwi c x], decodeCode (encode i) = i := by
  intro i h
  fin_cases h
  all_goals
    change decodeArm _ = _
    simp (disch := decide) only [decodeArm_eq_tree, decodeTransferSpace, decodeBranch, read_append, read_whole,
      Nat.reduceSub]
    rfl

theorem decodeCode_encode_armBx (sbo : BitVec 12) (rm : RegNum) :
    decodeCode (encode (.armBx c sbo rm)) = .armBx c sbo rm := by
  change decodeArm _ = _
  simp (disch := decide) only [decodeArm_eq_tree, read_append, read_whole, Nat.reduceSub]
  rfl

theorem decodeArm_encodeCoprocessorTransfer (p u n w : Bool) (rn : RegNum) (crd cp : BitVec 4) (off8 : BitVec 8) :
    ∀ mk l, (mk, l) ∈ [(Instr.armLdc, true), (Instr.armStc, false)] →
      decodeArm (encodeCoprocessorTransfer c p u n w l rn crd cp off8) = mk c p u n w rn crd cp off8 := by
  intro mk l h
  simp (disch := decide) only [decodeArm_eq_tree, decodeTransferSpace, encodeCoprocessorTransfer,
    decodeCoprocessorTransfer, read_append, read_whole, Nat.reduceSub]
  fin_cases h <;> rfl

theorem decodeCode_encode_armCdp (op1 crn crd cp : BitVec 4) (op2 : BitVec 3) (crm : BitVec 4) :
    decodeCode (encode (.armCdp c op1 crn crd cp op2 crm)) = .armCdp c op1 crn crd cp op2 crm := by
  change decodeArm _ = _
  simp (disch := decide) only [decodeArm_eq_tree, decodeTransferSpace, decodeCoprocessorOperation, read_append,
    read_whole, Nat.reduceSub]
  rfl

theorem decodeArm_encodeCoprocessorMove (op1 : BitVec 3) (crn rd cp : BitVec 4) (op2 : BitVec 3) (crm : BitVec 4) :
    ∀ mk l, (mk, l) ∈ [(Instr.armMcr, false), (Instr.armMrc, true)] →
      decodeArm (encodeCoprocessorMove c op1 l crn rd cp op2 crm) = mk c op1 crn rd cp op2 crm := by
  intro mk l h
  simp (disch := decide) only [decodeArm_eq_tree, decodeTransferSpace, encodeCoprocessorMove,
    decodeCoprocessorOperation, read_append, read_whole, Nat.reduceSub]
  fin_cases h <;> rfl

end

/-! ### Thumb formats (30_encoding R291, R292) -/

theorem decodeThumb_encodeThumbShift (off5 : BitVec 5) (rs rd : LowReg) :
    ∀ mk op, (mk, op) ∈
      [(Instr.thumbLslImm, 0#5), (Instr.thumbLsrImm, 1#5), (Instr.thumbAsrImm, 2#5), (Instr.thumbStrImm, 12#5),
        (Instr.thumbLdrImm, 13#5), (Instr.thumbStrbImm, 14#5), (Instr.thumbLdrbImm, 15#5), (Instr.thumbStrhImm, 16#5),
        (Instr.thumbLdrhImm, 17#5)] →
      decodeThumb (encodeThumbShift op off5 rs rd) = mk off5 rs rd := by
  intro mk op h
  simp (disch := decide) only [encodeThumbShift, decodeThumb, decodeThumbShiftAdd, decodeThumb01, decodeThumb10,
    read_append, read_whole, Nat.reduceSub]
  fin_cases h <;> rfl

theorem decodeThumb_encodeThumb333 (a b d : BitVec 3) :
    ∀ mk op, (mk, op) ∈
      [(Instr.thumbAddReg, 12#7), (Instr.thumbSubReg, 13#7), (Instr.thumbAddImm3, 14#7), (Instr.thumbSubImm3, 15#7),
        (Instr.thumbStrReg, 40#7), (Instr.thumbStrhReg, 41#7), (Instr.thumbStrbReg, 42#7), (Instr.thumbLdsbReg, 43#7),
        (Instr.thumbLdrReg, 44#7), (Instr.thumbLdrhReg, 45#7), (Instr.thumbLdrbReg, 46#7),
        (Instr.thumbLdshReg, 47#7)] →
      decodeThumb (encodeThumb333 op a b d) = mk a b d := by
  intro mk op h
  simp (disch := decide) only [encodeThumb333, decodeThumb, decodeThumbShiftAdd, decodeThumb01, decodeThumbRegOffset,
    read_append, read_whole, Nat.reduceSub]
  fin_cases h <;> rfl

theorem decodeThumb_encodeThumbReg8 (r : LowReg) (low : BitVec 8) :
    ∀ mk op, (mk, op) ∈
      [(Instr.thumbMovImm, 4#5), (Instr.thumbCmpImm, 5#5), (Instr.thumbAddImm8, 6#5), (Instr.thumbSubImm8, 7#5),
        (Instr.thumbLdrPc, 9#5), (Instr.thumbStrSp, 18#5), (Instr.thumbLdrSp, 19#5), (Instr.thumbAddPc, 20#5),
        (Instr.thumbAddSp, 21#5), (Instr.thumbStmia, 24#5), (Instr.thumbLdmia, 25#5)] →
      decodeThumb (encodeThumbReg8 op r low) = mk r low := by
  intro mk op h
  simp (disch := decide) only [encodeThumbReg8, decodeThumb, decodeThumbImm8, decodeThumb01, decodeThumb10,
    decodeThumb11, read_append, read_whole, Nat.reduceSub]
  fin_cases h <;> rfl

theorem decodeThumb_encodeThumbAlu (rs rd : LowReg) :
    ∀ mk op, (mk, op) ∈
      [(Instr.thumbAnd, 256#10), (Instr.thumbEor, 257#10), (Instr.thumbLslReg, 258#10), (Instr.thumbLsrReg, 259#10),
        (Instr.thumbAsrReg, 260#10), (Instr.thumbAdc, 261#10), (Instr.thumbSbc, 262#10), (Instr.thumbRorReg, 263#10),
        (Instr.thumbTst, 264#10), (Instr.thumbNeg, 265#10), (Instr.thumbCmpReg, 266#10), (Instr.thumbCmn, 267#10),
        (Instr.thumbOrr, 268#10), (Instr.thumbMul, 269#10), (Instr.thumbBic, 270#10), (Instr.thumbMvn, 271#10)] →
      decodeThumb (encodeThumbAlu op rs rd) = mk rs rd := by
  intro mk op h
  simp (disch := decide) only [encodeThumbAlu, decodeThumb, decodeThumb01, decodeThumbAlu, read_append, read_whole,
    Nat.reduceSub]
  fin_cases h <;> rfl

theorem decodeThumb_encodeThumbHi (s d : RegNum) :
    ∀ mk op, (mk, op) ∈ [(Instr.thumbAddHi, 68#8), (Instr.thumbCmpHi, 69#8), (Instr.thumbMovHi, 70#8)] →
      decodeThumb (encodeThumbHi op s d) = mk s d := by
  intro mk op h
  simp (disch := decide) only [encodeThumbHi, decodeThumb, decodeThumb01, decodeThumbHi, read_append, read_whole,
    Nat.reduceSub, ofBool_append_low]
  fin_cases h <;> rfl

theorem decodeCode_encode_thumbBx (h1 : Bool) (s : RegNum) (sbz : BitVec 3) :
    decodeCode (encode (.thumbBx h1 s sbz)) = .thumbBx h1 s sbz := by
  change decodeThumb _ = _
  simp (disch := decide) only [decodeThumb, decodeThumb01, decodeThumbHi, read_append, read_whole, Nat.reduceSub]
  rfl

theorem decodeCode_encode_thumbSpImm (sword7 : BitVec 7) :
    ∀ i ∈ [Instr.thumbAddSpImm sword7, .thumbSubSpImm sword7], decodeCode (encode i) = i := by
  intro i h
  fin_cases h
  all_goals
    change decodeThumb _ = _
    simp (disch := decide) only [decodeThumb, decodeThumb10, decodeThumbMisc, read_append, read_whole, Nat.reduceSub]
    rfl

theorem decodeThumb_encodeThumb8 (low : BitVec 8) :
    ∀ mk op, (mk, op) ∈
      [(Instr.thumbPush, 180#8), (Instr.thumbPushLr, 181#8), (Instr.thumbPop, 188#8), (Instr.thumbPopPc, 189#8),
        (Instr.thumbBeq, 208#8), (Instr.thumbBne, 209#8), (Instr.thumbBcs, 210#8), (Instr.thumbBcc, 211#8),
        (Instr.thumbBmi, 212#8), (Instr.thumbBpl, 213#8), (Instr.thumbBvs, 214#8), (Instr.thumbBvc, 215#8),
        (Instr.thumbBhi, 216#8), (Instr.thumbBls, 217#8), (Instr.thumbBge, 218#8), (Instr.thumbBlt, 219#8),
        (Instr.thumbBgt, 220#8), (Instr.thumbBle, 221#8), (Instr.thumbUndefCond, 222#8), (Instr.thumbSwi, 223#8)] →
      decodeThumb (encodeThumb8 op low) = mk low := by
  intro mk op h
  simp (disch := decide) only [encodeThumb8, decodeThumb, decodeThumb10, decodeThumb11, decodeThumbMisc,
    decodeThumbCond, read_append, read_whole, Nat.reduceSub]
  fin_cases h <;> rfl

theorem decodeThumb_encodeThumb11 (low : BitVec 11) :
    ∀ mk op, (mk, op) ∈
      [(Instr.thumbB, 28#5), (Instr.thumbUndefLong, 29#5), (Instr.thumbBlHi, 30#5), (Instr.thumbBlLo, 31#5)] →
      decodeThumb (encodeThumb11 op low) = mk low := by
  intro mk op h
  simp (disch := decide) only [encodeThumb11, decodeThumb, decodeThumb11, read_append, read_whole, Nat.reduceSub]
  fin_cases h <;> rfl

theorem thumbMiscUndefined_eq : ∀ op : BitVec 4, thumbMiscUndefined op =
    (op.getLsbD 1 || !op.getLsbD 2 && (op.getLsbD 3 || op.getLsbD 0)) := by
  decide

theorem decodeCode_encode_thumbUndefMisc (op : BitVec 4) (low : BitVec 8) (h : thumbMiscUndefined op = true) :
    decodeCode (encode (.thumbUndefMisc op low)) = .thumbUndefMisc op low := by
  change decodeThumb _ = _
  rw [thumbMiscUndefined_eq] at h
  simp (disch := decide) only [decodeThumb, decodeThumb10, decodeThumbMisc, read_append, read_whole, Nat.reduceSub,
    BitVec.reduceGetLsb]
  split <;>
    simp_all only [Bool.or_false, Bool.not_false, Bool.and_false, Bool.not_true, Bool.false_and, Bool.false_eq_true]

/-! ### Every instruction -/

theorem decodeCode_encode (i : Instr) (h : WellFormed i = true) : decodeCode (encode i) = i := by
  cases i
  case armAnd | armEor | armSub | armRsb | armAdd | armAdc | armSbc | armRsc | armOrr | armMov | armBic | armMvn =>
    exact decodeArm_encodeDataProcessing _ _ _ _ _ _ _ (by simp)
  case armTst | armTeq | armCmp | armCmn => exact decodeArm_encodeDataProcessing_test _ _ _ _ _ _ (by simp)
  case armMrs => exact decodeCode_encode_armMrs ..
  case armMsrReg => exact decodeCode_encode_armMsrReg ..
  case armMsrImm => exact decodeCode_encode_armMsrImm ..
  case armMul | armMla => exact decodeArm_encodeMultiply _ _ _ _ _ _ _ _ (by simp)
  case armUmull | armUmlal | armSmull | armSmlal => exact decodeArm_encodeMultiplyLong _ _ _ _ _ _ _ _ _ (by simp)
  case armSwp | armSwpb => exact decodeArm_encodeSwap _ _ _ _ _ _ _ (by simp)
  case armStrhReg | armStrhImm | armLdrhReg | armLdrhImm | armLdrsbReg | armLdrsbImm | armLdrshReg | armLdrshImm =>
    exact decodeArm_encodeHalfword _ _ _ _ _ _ _ _ _ _ _ _ (by simp)
  case armStrhDspace => exact decodeCode_encode_armStrhDspace ..
  case armUndefMulspace => exact decodeCode_encode_armUndefMulspace _ _ _ _ h
  case armUndefMisc => exact decodeCode_encode_armUndefMisc _ _ _ _ h
  case armStrImmPre | armLdrImmPre | armStrbImmPre | armLdrbImmPre =>
    exact decodeArm_encodeTransferImm_pre _ _ _ _ _ _ _ _ _ (by simp)
  case armStrImmPost | armStrtImm | armLdrImmPost | armLdrtImm | armStrbImmPost | armStrbtImm | armLdrbImmPost |
      armLdrbtImm => exact decodeArm_encodeTransferImm_post _ _ _ _ _ _ _ _ _ (by simp)
  case armStrRegPre | armLdrRegPre | armStrbRegPre | armLdrbRegPre =>
    exact decodeArm_encodeTransferReg_pre _ _ _ _ _ _ _ _ _ _ _ (by simp)
  case armStrRegPost | armStrtReg | armLdrRegPost | armLdrtReg | armStrbRegPost | armStrbtReg | armLdrbRegPost |
      armLdrbtReg => exact decodeArm_encodeTransferReg_post _ _ _ _ _ _ _ _ _ _ _ (by simp)
  case armUndefA14 => exact decodeCode_encode_armUndefA14 ..
  case armStm | armStmUser | armLdm | armLdmUser => exact decodeArm_encodeBlockTransfer _ _ _ _ _ _ _ _ _ (by simp)
  case armB c x | armBl c x | armSwi c x => exact decodeCode_encode_branchOrSwi c x _ (by simp)
  case armBx => exact decodeCode_encode_armBx ..
  case armLdc | armStc => exact decodeArm_encodeCoprocessorTransfer _ _ _ _ _ _ _ _ _ _ _ (by simp)
  case armCdp => exact decodeCode_encode_armCdp ..
  case armMcr | armMrc => exact decodeArm_encodeCoprocessorMove _ _ _ _ _ _ _ _ _ (by simp)
  case thumbLslImm | thumbLsrImm | thumbAsrImm | thumbStrImm | thumbLdrImm | thumbStrbImm | thumbLdrbImm |
      thumbStrhImm | thumbLdrhImm => exact decodeThumb_encodeThumbShift _ _ _ _ _ (by simp)
  case thumbAddReg | thumbSubReg | thumbAddImm3 | thumbSubImm3 | thumbStrReg | thumbStrhReg | thumbStrbReg |
      thumbLdsbReg | thumbLdrReg | thumbLdrhReg | thumbLdrbReg | thumbLdshReg =>
    exact decodeThumb_encodeThumb333 _ _ _ _ _ (by simp)
  case thumbMovImm | thumbCmpImm | thumbAddImm8 | thumbSubImm8 | thumbLdrPc | thumbStrSp | thumbLdrSp | thumbAddPc |
      thumbAddSp | thumbStmia | thumbLdmia => exact decodeThumb_encodeThumbReg8 _ _ _ _ (by simp)
  case thumbAnd | thumbEor | thumbLslReg | thumbLsrReg | thumbAsrReg | thumbAdc | thumbSbc | thumbRorReg | thumbTst |
      thumbNeg | thumbCmpReg | thumbCmn | thumbOrr | thumbMul | thumbBic | thumbMvn =>
    exact decodeThumb_encodeThumbAlu _ _ _ _ (by simp)
  case thumbAddHi | thumbCmpHi | thumbMovHi => exact decodeThumb_encodeThumbHi _ _ _ _ (by simp)
  case thumbBx => exact decodeCode_encode_thumbBx ..
  case thumbAddSpImm x | thumbSubSpImm x => exact decodeCode_encode_thumbSpImm x _ (by simp)
  case thumbPush | thumbPushLr | thumbPop | thumbPopPc | thumbBeq | thumbBne | thumbBcs | thumbBcc | thumbBmi |
      thumbBpl | thumbBvs | thumbBvc | thumbBhi | thumbBls | thumbBge | thumbBlt | thumbBgt | thumbBle |
      thumbUndefCond | thumbSwi => exact decodeThumb_encodeThumb8 _ _ _ (by simp)
  case thumbB | thumbUndefLong | thumbBlHi | thumbBlLo => exact decodeThumb_encodeThumb11 _ _ _ (by simp)
  case thumbUndefMisc => exact decodeCode_encode_thumbUndefMisc _ _ h

/-! ### Bytes (20_memory R151) -/

theorem wordOfBytes_bytes (w : Word) :
    wordOfBytes (w.extractLsb' 0 8) (w.extractLsb' 8 8) (w.extractLsb' 16 8) (w.extractLsb' 24 8) = w := by
  rw [wordOfBytes, BitVec.extractLsb'_append_extractLsb'_eq_extractLsb' (show 24 = 16 + 8 from rfl),
    BitVec.extractLsb'_append_extractLsb'_eq_extractLsb' (show 16 = 8 + 8 from rfl)]
  exact BitVec.extractLsb'_append_extractLsb'

theorem halfOfBytes_bytes (h : Half) : halfOfBytes (h.extractLsb' 0 8) (h.extractLsb' 8 8) = h :=
  BitVec.extractLsb'_append_extractLsb'

/-- The decoder takes the bytes of one code and leaves those that follow. -/
theorem decode_bytes (x : Code) (rest : List Byte) : decode x.isThumb (x.bytes ++ rest) = .ok (decodeCode x, rest) := by
  cases x with
  | arm w => exact congrArg (fun w => Except.ok (decodeArm w, rest)) (wordOfBytes_bytes w)
  | thumb h => exact congrArg (fun h => Except.ok (decodeThumb h, rest)) (halfOfBytes_bytes h)

/-- Settles O42, by the format of the instruction: R252 and R291 reach the format's decoder, which reads back its
fields. -/
theorem decodeOfEncode : Obligations.DecodeOfEncode := by
  unfold Obligations.DecodeOfEncode
  intro i rest h
  rw [decode_bytes, decodeCode_encode i h]

end Sys2Proof.Proofs
end

section
/-! PROOFS. Mirrors of the storage regions, and the byte order of halfwords and words (20_memory R151 to R168). -/

namespace Sys2Proof.Proofs

open Sys2Proof.Machine Sys2Proof.Statements

/-! ### Mirrors (20_memory R161 to R168) -/

/-- The regions whose storage repeats within their window. -/
def mirrored : List Region := [.ewram, .iwram, .palette, .vram, .oam, .rom, .sram]

theorem regionOf_of_bounds {r : Region} (hr : r ∈ mirrored) {a : Word} (h : regionBounds r a.toNat) :
    regionOf a = r := by
  have top (n : Nat) (e : a.toNat / 0x1000000 = n) : (a.extractLsb' 24 8).toNat = n := (topByte_toNat a).trans e
  fin_cases hr <;> simp only [regionBounds] at h
  · rw [regionOf, top 2 (by omega)]; rfl
  · rw [regionOf, top 3 (by omega)]; rfl
  · rw [regionOf, top 5 (by omega)]; rfl
  · rw [regionOf, top 6 (by omega)]; rfl
  · rw [regionOf, top 7 (by omega)]; rfl
  · obtain e | e | e | e | e | e : a.toNat / 0x1000000 = 8 ∨ a.toNat / 0x1000000 = 9 ∨ a.toNat / 0x1000000 = 10 ∨
      a.toNat / 0x1000000 = 11 ∨ a.toNat / 0x1000000 = 12 ∨ a.toNat / 0x1000000 = 13 := by omega
    all_goals rw [regionOf, top _ e]; rfl
  · obtain e | e : a.toNat / 0x1000000 = 14 ∨ a.toNat / 0x1000000 = 15 := by omega
    all_goals rw [regionOf, top _ e]; rfl

/-- A byte of a mirrored region is its storage byte. -/
theorem readByte_of_bounds (s : State) {r : Region} (hr : r ∈ mirrored) {a : Word} (h : regionBounds r a.toNat) :
    s.readByte a = s.memByte (keyIn r a.toNat) := by
  rw [State.readByte, regionOf_of_bounds hr h]
  fin_cases hr <;> rfl

theorem readByte_mirror (s : State) {r : Region} (hr : r ∈ mirrored) {a b : Word} (ha : regionBounds r a.toNat)
    (hb : regionBounds r b.toNat) (hk : keyIn r a.toNat = keyIn r b.toNat) : s.readByte a = s.readByte b := by
  rw [readByte_of_bounds s hr ha, readByte_of_bounds s hr hb, hk]

/-! ### Byte order (20_memory R151, R153) -/

theorem append_toNat {n m : Nat} (x : BitVec n) (y : BitVec m) : (x ++ y).toNat = y.toNat + 2 ^ m * x.toNat := by
  rw [BitVec.toNat_append, ← Nat.shiftLeft_add_eq_or_of_lt y.isLt, Nat.shiftLeft_eq, Nat.mul_comm, Nat.add_comm]

theorem readHalf_toNat (s : State) (a : Word) :
    (s.readHalf a).toNat = (s.readByte a).toNat + 256 * (s.readByte (a + 1#32)).toNat := append_toNat _ _

theorem readWord_toNat (s : State) (a : Word) : (s.readWord a).toNat =
    (s.readByte a).toNat + 256 * (s.readByte (a + 1#32)).toNat + 65536 * (s.readByte (a + 2#32)).toNat +
      16777216 * (s.readByte (a + 3#32)).toNat := by
  rw [State.readWord]
  simp only [append_toNat]
  omega

theorem readWord_toNat_halves (s : State) (a : Word) :
    (s.readWord a).toNat = (s.readHalf a).toNat + 65536 * (s.readHalf (a + 2#32)).toNat := by
  rw [readWord_toNat, readHalf_toNat, readHalf_toNat, show a + 2#32 + 1#32 = a + 3#32 by rw [BitVec.add_assoc]; rfl]
  omega

/-- Settles O52: a mirror folds to the key of its storage byte, and the bytes of a read are side by side. -/
theorem memoryMirrors : Obligations.MemoryMirrors := by
  unfold Obligations.MemoryMirrors
  refine fun s => ⟨fun a b base window size hm ha ha' hb hb' e => ?_, fun a h h' hu => ?_, fun a => ⟨rfl, ?_, ?_⟩⟩
  · fin_cases hm
    · exact readByte_mirror s (r := .ewram) (by decide) ⟨ha, ha'⟩ ⟨hb, hb'⟩ (congrArg (0x02000000 + ·) e)
    · exact readByte_mirror s (r := .iwram) (by decide) ⟨ha, ha'⟩ ⟨hb, hb'⟩ (congrArg (0x03000000 + ·) e)
    · exact readByte_mirror s (r := .palette) (by decide) ⟨ha, ha'⟩ ⟨hb, hb'⟩ (congrArg (0x05000000 + ·) e)
    · exact readByte_mirror s (r := .vram) (by decide) ⟨ha, ha'⟩ ⟨hb, hb'⟩
        (congrArg (fun o => 0x06000000 + if 0x18000 ≤ o then o - 0x8000 else o) e)
    · exact readByte_mirror s (r := .oam) (by decide) ⟨ha, ha'⟩ ⟨hb, hb'⟩ (congrArg (0x07000000 + ·) e)
    · exact readByte_mirror s (r := .rom) (by decide) ⟨ha, ha'⟩ ⟨hb, hb'⟩ (congrArg (0x08000000 + ·) e)
    · exact readByte_mirror s (r := .sram) (by decide) ⟨ha, ha'⟩ ⟨hb, hb'⟩ (congrArg (0x0E000000 + ·) e)
  · have hsub : (a - 0x8000#32).toNat = a.toNat - 0x8000 := BitVec.toNat_sub_of_le (by bv_omega)
    refine readByte_mirror s (r := .vram) (by decide) ⟨h, h'⟩ ?_ ?_
    · simp only [regionBounds, hsub]
      omega
    · simp only [keyIn, vramOffset, hsub]
      split <;> split <;> omega
  · exact (BitVec.ofNat_toNat ..).symm.trans (congrArg (BitVec.ofNat 32) (readHalf_toNat s _))
  · exact (BitVec.ofNat_toNat ..).symm.trans (congrArg (BitVec.ofNat 32) (readWord_toNat s _))

end Sys2Proof.Proofs
end

section
/-! PROOFS. The I/O page on the bus: halfwords by the owner of the granule, bytes and words as parts and pairs of them
(20_memory R163, R185 to R198). -/

namespace Sys2Proof.Proofs

open Sys2Proof.Machine Sys2Proof.Statements

/-! ### Addresses of the page (20_memory R153, R163) -/

section
variable {o : Nat}

theorem ioAddress_toNat (ho : o < 0x400) : (ioAddress o).toNat = 0x04000000 + o :=
  (BitVec.toNat_ofNat ..).trans (Nat.mod_eq_of_lt (by omega))

theorem regionOf_ioAddress (ho : o < 0x400) : regionOf (ioAddress o) = .io := by
  have ha := ioAddress_toNat ho
  have top : ((ioAddress o).extractLsb' 24 8).toNat = 4 := (topByte_toNat _).trans (by omega)
  rw [regionOf, top]
  exact if_pos (by omega)

theorem ioAddress_add (o k : Nat) : ioAddress o + BitVec.ofNat 32 k = ioAddress (o + k) := by
  rw [ioAddress, ioAddress, ← BitVec.ofNat_add, Nat.add_assoc]

theorem alignAddr_ioAddress_half (ho : o < 0x400) (he : o % 2 = 0) : alignAddr .half (ioAddress o) = ioAddress o :=
  alignAddr_half_of_even _ (by rw [ioAddress_toNat ho]; omega)

theorem alignAddr_ioAddress_word (ho : o < 0x400) (he : o % 4 = 0) : alignAddr .word (ioAddress o) = ioAddress o :=
  alignAddr_word_of_multiple _ (by rw [ioAddress_toNat ho]; omega)

/-! ### Writes to the page (20_memory R185) -/

theorem memWrite_ioAddress (s : State) (w : Width) (v : Word) (ho : o < 0x400)
    (hal : alignAddr w (ioAddress o) = ioAddress o) : s.memWrite w (ioAddress o) v = s.ioStore w o v := by
  rw [memWrite_of_io s w _ v (regionOf_ioAddress ho), hal, ioAddress_toNat ho,
    show (0x04000000 + o) % 0x400 = o by omega]

theorem memWrite_half_ioAddress (s : State) (v : Word) (ho : o < 0x400) (he : o % 2 = 0) :
    s.memWrite .half (ioAddress o) v = s.ioWrite16 o (v.setWidth 16) := by
  rw [memWrite_ioAddress s .half v ho (alignAddr_ioAddress_half ho he), BitVec.setWidth_eq_extractLsb' (by decide)]
  rfl

theorem memWrite_byte_ioAddress (s : State) (v : Word) (ho : o < 0x400) (he : o % 2 = 0) {k : Nat} (hk : k < 2) :
    s.memWrite .byte (ioAddress (o + k)) v = s.ioWrite16 o (mergeByte (s.ioMergeBase o) (v.extractLsb' 0 8) k) := by
  rw [memWrite_ioAddress s .byte v (by omega) rfl]
  show s.ioWrite8 (o + k) _ = _
  rw [State.ioWrite8, show (o + k) % 2 = k by omega, Nat.add_sub_cancel]

theorem memWrite_word_ioAddress (s : State) (v : Word) (ho : o < 0x400) (he : o % 4 = 0) :
    s.memWrite .word (ioAddress o) v =
      (s.memWrite .half (ioAddress o) v).memWrite .half (ioAddress (o + 2)) (v >>> 16) := by
  rw [memWrite_ioAddress s .word v ho (alignAddr_ioAddress_word ho he),
    memWrite_half_ioAddress s v ho (by omega), memWrite_half_ioAddress _ _ (by omega) (by omega),
    BitVec.setWidth_ushiftRight_eq_extractLsb, BitVec.setWidth_eq_extractLsb' (by decide)]
  rfl

/-! ### Reads of the page (20_memory R185) -/

theorem readByte_ioAddress (s : State) (ho : o < 0x400) : s.readByte (ioAddress o) = s.ioReadByte o := by
  rw [State.readByte, regionOf_ioAddress ho]
  show s.ioReadByte ((ioAddress o).toNat % 0x400) = _
  rw [ioAddress_toNat ho, show (0x04000000 + o) % 0x400 = o by omega]

theorem ioReadByte_low (s : State) (he : o % 2 = 0) : s.ioReadByte o = (s.ioRead16 o).extractLsb' 0 8 := by
  rw [State.ioReadByte, if_pos he, he, Nat.sub_zero]

theorem ioReadByte_high (s : State) (he : o % 2 = 0) : s.ioReadByte (o + 1) = (s.ioRead16 o).extractLsb' 8 8 := by
  rw [State.ioReadByte, if_neg (by omega), show o + 1 - (o + 1) % 2 = o by omega]

theorem readHalf_ioAddress (s : State) (ho : o < 0x400) (he : o % 2 = 0) : s.readHalf (ioAddress o) = s.ioRead16 o := by
  rw [State.readHalf, ioAddress_add, readByte_ioAddress s ho, readByte_ioAddress s (by omega), ioReadByte_low s he,
    ioReadByte_high s he]
  exact BitVec.extractLsb'_append_extractLsb'

theorem memRead_half_ioAddress (s : State) (ho : o < 0x400) (he : o % 2 = 0) :
    s.memRead .half (ioAddress o) = (s.ioRead16 o).setWidth 32 := by
  rw [State.memRead, alignAddr_ioAddress_half ho he, readHalf_ioAddress s ho he]

theorem memRead_half_toNat (s : State) (ho : o < 0x400) (he : o % 2 = 0) :
    (s.memRead .half (ioAddress o)).toNat = (s.ioRead16 o).toNat := by
  rw [memRead_half_ioAddress s ho he, BitVec.toNat_setWidth_of_le (by decide)]

theorem memRead_byte_ioAddress (s : State) (ho : o < 0x400) (he : o % 2 = 0) {k : Nat} (hk : k < 2) :
    s.memRead .byte (ioAddress (o + k)) =
      BitVec.ofNat 32 ((s.memRead .half (ioAddress o)).toNat / 256 ^ k % 256) := by
  rw [memRead_half_toNat s ho he, State.memRead, readByte_ioAddress s (by omega), ← BitVec.ofNat_toNat]
  congr 1
  obtain rfl | rfl : k = 0 ∨ k = 1 := by omega
  · rw [Nat.add_zero, ioReadByte_low s he, BitVec.extractLsb'_toNat]
    omega
  · rw [ioReadByte_high s he, BitVec.extractLsb'_toNat]
    omega

theorem memRead_word_ioAddress (s : State) (ho : o < 0x400) (he : o % 4 = 0) :
    s.memRead .word (ioAddress o) = BitVec.ofNat 32
      ((s.memRead .half (ioAddress o)).toNat + 65536 * (s.memRead .half (ioAddress (o + 2))).toNat) := by
  rw [memRead_half_toNat s ho (by omega), memRead_half_toNat s (by omega) (by omega),
    ← readHalf_ioAddress s ho (by omega), ← readHalf_ioAddress s (by omega) (by omega), ← ioAddress_add o 2,
    ← readWord_toNat_halves, BitVec.ofNat_toNat, BitVec.setWidth_eq, State.memRead, alignAddr_ioAddress_word ho he]

end

/-! ### Granules by owner (20_memory R186, R190, R192, R196, R198) -/

theorem ioOwner_environment {o : Nat} (h : environmentOwned o = true) : ioOwner o = .environment := by
  have core (r : IoReg) : environmentOwned r.offset = false := by cases r <;> rfl
  unfold ioOwner
  cases hr : ioRegAt o with
  | some r => rw [← ioRegAt_offset o r hr, core] at h; cases h
  | none => exact if_pos h

theorem ioOwner_unused {o : Nat} (h : environmentOwned o = false) (hr : ∀ r : IoReg, r.offset ≠ o) :
    ioOwner o = .unused := by
  unfold ioOwner
  cases e : ioRegAt o with
  | some r => exact absurd (ioRegAt_offset o r e) (hr r)
  | none => exact if_neg (ne_true_of_eq_false h)

theorem ioOwner_offset (r : IoReg) : ioOwner r.offset = .core r := (ioOwner_core _ r).mpr (ioRegAt_of_offset r)

/-- Granules stand at even offsets of the page. -/
theorem ioReg_offset (r : IoReg) : r.offset < 0x400 ∧ r.offset % 2 = 0 := by cases r <;> decide

theorem ioMerged_eq_granuleAfter (r : IoReg) (old v : Half) : ioMerged r old v = granuleAfter r old v := by
  cases r <;> rfl

theorem ioMergeBase_offset (s : State) (r : IoReg) : s.ioMergeBase r.offset = if r = .if_ then 0#16 else s.ioRaw r := by
  rw [State.ioMergeBase, ioOwner_offset]
  cases r <;> rfl

theorem ioWrite16_core (s : State) (r : IoReg) (v : Half) :
    s.ioWrite16 r.offset v = (s.setIoRaw r (ioMerged r (s.ioRaw r) v)).reloadAffine r := by
  rw [State.ioWrite16, ioOwner_offset]

theorem referencesReloaded_reloadAffine (s : State) (r : IoReg) (v : Half) :
    ReferencesReloaded r s ((s.setIoRaw r v).reloadAffine r) := by
  cases r <;> exact ⟨rfl, rfl, rfl, rfl⟩

theorem ioWrite16_environment (s : State) {o : Nat} (h : environmentOwned o = true) (v : Half) :
    s.ioWrite16 o v = { s with envEvents := s.envEvents ++ [(o, v)] } := by
  rw [State.ioWrite16, ioOwner_environment h]

theorem ioWrite16_unused (s : State) {o : Nat} (h : environmentOwned o = false) (hr : ∀ r : IoReg, r.offset ≠ o)
    (v : Half) : s.ioWrite16 o v = s := by
  rw [State.ioWrite16, ioOwner_unused h hr]

/-- A byte merged into a halfword, in the words of integer arithmetic (`merge` of 20_memory R185). -/
theorem mergeByte_eq (h : Half) (v : Word) {k : Nat} (hk : k < 2) :
    mergeByte h (v.extractLsb' 0 8) k = BitVec.ofNat 16 (mergedHalf h.toNat v k) := by
  apply BitVec.eq_of_toNat_eq
  have hh := h.isLt
  rw [mergeByte, mergedHalf, BitVec.toNat_ofNat]
  obtain rfl | rfl : k = 0 ∨ k = 1 := by omega
  · rw [if_pos rfl, if_pos rfl, append_toNat, BitVec.extractLsb'_toNat, BitVec.extractLsb'_toNat]
    omega
  · rw [if_neg (by decide), if_neg (by decide), append_toNat, BitVec.extractLsb'_toNat, BitVec.extractLsb'_toNat]
    omega

theorem memWrite_half_core (s : State) (v : Word) (r : IoReg) : ∃ t, s.memWrite .half (ioAddress r.offset) v = t ∧
    t.ioRaw r = granuleAfter r (s.ioRaw r) (v.setWidth 16) ∧ (∀ q, q ≠ r → t.ioRaw q = s.ioRaw q) ∧
    ReferencesReloaded r s t ∧ t.envEvents = s.envEvents ∧ t.mem = s.mem ∧ t.regs = s.regs := by
  obtain ⟨ho, he⟩ := ioReg_offset r
  refine ⟨_, memWrite_half_ioAddress s v ho he, ?_, fun q hq => ?_, ?_, ?_, (ioWrite16_frame s _ _).mem,
    (ioWrite16_frame s _ _).regs⟩
  · rw [ioRaw_ioWrite16_same, ioMerged_eq_granuleAfter]
  · rw [ioWrite16_core, ioRaw_congr (reloadAffine_io _ r), ioRaw_setIoRaw_ne s q r _ hq]
  · rw [ioWrite16_core]
    exact referencesReloaded_reloadAffine s r _
  · rw [ioWrite16_core, reloadAffine_envEvents]
    rfl

theorem memWrite_byte_core (s : State) (v : Word) (r : IoReg) {k : Nat} (hk : k < 2) :
    s.memWrite .byte (ioAddress (r.offset + k)) v = s.memWrite .half (ioAddress r.offset)
      (BitVec.ofNat 32 (if r = .if_ then mergedHalf 0 v k else mergedHalf (s.ioRaw r).toNat v k)) := by
  obtain ⟨ho, he⟩ := ioReg_offset r
  rw [memWrite_byte_ioAddress s v ho he hk, memWrite_half_ioAddress s _ ho he, mergeByte_eq _ v hk, ioMergeBase_offset,
    BitVec.setWidth_ofNat_of_le (by decide)]
  split <;> rfl

/-- Settles O53, by the owner of the granule at the offset. -/
theorem ioPage : Obligations.IoPage := by
  unfold Obligations.IoPage
  refine fun s v => ⟨fun r => ?_, fun r k hk => memWrite_byte_core s v r hk, fun o he ho henv => ?_,
    fun o he ho henv hr => ?_, fun o he ho k hk => memRead_byte_ioAddress s ho he hk, fun o he ho =>
    ⟨memWrite_word_ioAddress s v ho he, memRead_word_ioAddress s ho he⟩⟩
  · obtain ⟨ho, he⟩ := ioReg_offset r
    obtain ⟨t, ht, hself, hother, href, henv, hmem, hregs⟩ := memWrite_half_core s v r
    refine ⟨t, ht, hself, hother, href, henv, hmem, hregs, ?_⟩
    rw [memRead_half_ioAddress s ho he, State.ioRead16, ioOwner_offset]
  · refine ⟨(memWrite_half_ioAddress s v ho he).trans (ioWrite16_environment s henv _), fun k hk =>
      ⟨(s.ioMergeBase o).toNat, ?_⟩⟩
    rw [memWrite_byte_ioAddress s v ho he hk, ioWrite16_environment s henv, mergeByte_eq _ v hk]
  · refine ⟨(memWrite_half_ioAddress s v ho he).trans (ioWrite16_unused s henv hr _), fun k hk => ?_⟩
    rw [memWrite_byte_ioAddress s v ho he hk, ioWrite16_unused s henv hr]

end Sys2Proof.Proofs
end

section
/-! PROOFS. Where a CPU step stops before it executes (20_memory R158; 70_reset_and_hazards R942). -/

namespace Sys2Proof.Proofs

open Sys2Proof.Machine Sys2Proof.Statements

/-- A CPU turn whose fetch is not admitted, with no IRQ to take, is a fault. -/
theorem step_of_not_fetchable {s u : State} (hturn : CpuTurn s u) (hirq : ¬ IrqWanted u) (hpc : ¬ Fetchable u.pc) :
    step s = .fault .fetchFromUnexecutableRegion := by
  have noIrq : ¬ u.tick.irqPending = true := fun e => hirq ((irqPending_iff u).mp e)
  have noFetch : ¬ executable u.pc = true := fun e => hpc ((executable_iff u.pc).mp e)
  rw [step_cpuTurn hturn, cpuStep, if_neg noIrq, if_neg noFetch]

/-- Settles O46: the fetch comes before the instruction, and the hazard before its execution. -/
theorem stepStops : Obligations.StepStops := by
  unfold Obligations.StepStops
  refine ⟨fun s u hturn hirq hpc => step_of_not_fetchable hturn hirq hpc, fun s u i hf hh => ?_⟩
  rw [step_of_fetches hf, runInstr]
  exact if_pos ((hazardMet_iff u i).mpr hh)

end Sys2Proof.Proofs
end

section
/-! PROOFS. Conditions, fixed fields and the words of the encoding tables (30_encoding R251 to R254, R292;
40_shifter_alu R350). -/

namespace Sys2Proof.Proofs

open Sys2Proof.Machine Sys2Proof.Statements

/-! ### Words of the encoding tables (30_encoding R253, R292) -/

/-- Settles O44: each word is closed, so the decoder evaluates on it. -/
theorem writtenWordsDecode : Obligations.WrittenWordsDecode := by
  unfold Obligations.WrittenWordsDecode
  decide

/-! ### Fixed fields (30_encoding R254) -/

/-- An ARM instruction whose condition passes is refused when the first test of its body is met. -/
theorem whenPassed_refuseIf {c : Cond} {s : State} {body : State → Except Refusal State} {test : Bool}
    {reason : Refusal} {rest : Except Refusal State} (hc : condPassed c s.cpsr = true)
    (hbody : body s = refuseIf test reason rest) (h : test = true) : whenPassed c s body = .refused reason := by
  rw [whenPassed_true c s body hc, hbody, h, refuseIf_true, outcome_error]

/-- Settles O10: every form tests its fixed fields first. -/
theorem fixedFieldsRefused : Obligations.FixedFieldsRefused := by
  unfold Obligations.FixedFieldsRefused
  intro c s hc
  refine ⟨fun _ _ _ _ h => ⟨?mov, ?mvn⟩, fun mk hmk _ _ _ h => ?test, fun _ _ _ _ _ h => ?mrs,
    fun _ _ _ _ _ h => ?msrReg, fun _ _ _ _ _ h => ?msrImm, fun _ _ _ _ _ h => ?mul,
    fun _ _ _ _ h => ⟨?swp, ?swpb⟩, fun _ _ _ _ _ _ _ h => ⟨?strh, ?ldrh, ?ldrsb, ?ldrsh⟩, fun _ _ h => ?bx⟩
  case test => fin_cases hmk <;> exact whenPassed_refuseIf hc rfl (decide_eq_true h)
  all_goals rw [exec]
  case mrs => exact whenPassed_refuseIf hc rfl (by simpa [or_assoc] using h)
  case msrReg => exact whenPassed_refuseIf hc rfl (by simpa using h)
  case mov | mvn | msrImm | mul | swp | swpb | strh | ldrh | ldrsb | ldrsh | bx =>
    exact whenPassed_refuseIf hc rfl (decide_eq_true h)

/-! ### Conditions (30_encoding R251; 40_shifter_alu R350 to R352) -/

theorem toBits_ofBits : ∀ b : BitVec 4, (Cond.ofBits b).toBits = b := by decide

section
variable (c : Cond) (w : Word)

theorem condOf_cond {b : Bool} {i j : Instr} (hi : condOf i = c) (hj : condOf j = c) :
    condOf (bif b then i else j) = c := by
  cases b
  · exact hj
  · exact hi

theorem condOf_decodeMultiply : condOf (decodeMultiply c w) = c := condOf_cond c rfl rfl

theorem condOf_decodeMultiplyLong : condOf (decodeMultiplyLong c w) = c := by
  unfold decodeMultiplyLong
  split <;> rfl

theorem condOf_decodeSwap : condOf (decodeSwap c w) = c := condOf_cond c rfl rfl

theorem condOf_decodeHalfwordSpace : condOf (decodeHalfwordSpace c w) = c := by
  unfold decodeHalfwordSpace
  split <;> rfl

theorem condOf_decodeMiscSpace : condOf (decodeMiscSpace c w) = c :=
  condOf_cond c (condOf_cond c rfl rfl) (condOf_cond c rfl rfl)

theorem condOf_decodeDataProcessing : condOf (decodeDataProcessing c w) = c := by
  unfold decodeDataProcessing
  split <;> rfl

theorem condOf_decodeSingleTransfer : condOf (decodeSingleTransfer c w) = c := by
  unfold decodeSingleTransfer
  dsimp only
  split <;> rfl

theorem condOf_decodeBlockTransfer : condOf (decodeBlockTransfer c w) = c := by
  unfold decodeBlockTransfer
  split <;> rfl

theorem condOf_decodeCoprocessorOperation : condOf (decodeCoprocessorOperation c w) = c := by
  unfold decodeCoprocessorOperation
  split <;> rfl

/-- Each of lines 8 to 14 of R252 hands its format the condition it was given. -/
theorem condOf_decodeTransferSpace : condOf (decodeTransferSpace c w) = c := by
  unfold decodeTransferSpace
  split
  · exact condOf_cond c rfl (condOf_decodeSingleTransfer c w)
  · exact condOf_decodeSingleTransfer c w
  · exact condOf_decodeBlockTransfer c w
  · exact condOf_cond c rfl rfl
  · exact condOf_cond c rfl rfl
  · exact condOf_cond c rfl (condOf_decodeCoprocessorOperation c w)

end

/-- The condition of a decoded word is the one its bits 31 to 28 name. -/
theorem condOf_decodeArm (w : Word) : condOf (decodeArm w) = Cond.ofBits (w.extractLsb' 28 4) :=
  condOf_cond _ rfl <| condOf_cond _ (condOf_decodeMultiply _ w) <| condOf_cond _ (condOf_decodeMultiplyLong _ w) <|
    condOf_cond _ (condOf_decodeSwap _ w) <| condOf_cond _ (condOf_decodeHalfwordSpace _ w) <|
    condOf_cond _ (condOf_decodeMiscSpace _ w) <| condOf_cond _ (condOf_decodeDataProcessing _ w) <|
    condOf_decodeTransferSpace _ w

/-- Settles O28: the table of conditions; each decoder hands on the condition of the word; every ARM instruction is a
body behind its condition. -/
theorem conditionCodes : Obligations.ConditionCodes := by
  unfold Obligations.ConditionCodes
  refine ⟨fun k p => ?table, fun w => ?bits, fun i w s hi hc => exec_arm_skipped i w s hi hc⟩
  case table => cases k <;> simp [condPassed]
  case bits => rw [condOf_decodeArm, toBits_ofBits]

end Sys2Proof.Proofs
end

section
/-! PROOFS. The barrel shifter and the three forms of the second operand (40_shifter_alu R355 to R365; 10_state R62). -/

namespace Sys2Proof.Proofs

open Sys2Proof.Machine Sys2Proof.Statements

/-! ### Immediate amounts (40_shifter_alu R356, R364) -/

section
variable (v : Word) {n : Nat} (cin : Bool) (h : n ≠ 0)
include h

theorem shiftImmOp_lsl : shiftImmOp .lsl v n cin = (v <<< n, v.getLsbD (32 - n)) := if_neg h

theorem shiftImmOp_lsr : shiftImmOp .lsr v n cin = (v >>> n, v.getLsbD (n - 1)) := if_neg h

theorem shiftImmOp_asr : shiftImmOp .asr v n cin = (v.sshiftRight n, v.getLsbD (n - 1)) := if_neg h

theorem shiftImmOp_ror : shiftImmOp .ror v n cin = (v.rotateRight n, v.getLsbD (n - 1)) := if_neg h

end

/-- An immediate amount of 1 to 31 shifts by that many places. -/
theorem shiftImmOp_shiftedBy (kind : ShiftKind) (v : Word) (n : Nat) (cin : Bool) (h : n ≠ 0) (hn : n < 32) :
    ShiftedBy kind v n (shiftImmOp kind v n cin) := by
  cases kind with
  | lsl => rw [shiftImmOp_lsl v cin h]; exact And.intro (shiftLeft_toNat v n) rfl
  | lsr => rw [shiftImmOp_lsr v cin h]; exact And.intro (shiftRight_toNat v n) rfl
  | asr => rw [shiftImmOp_asr v cin h]; exact And.intro (shiftRight_toInt v n) rfl
  | ror => rw [shiftImmOp_ror v cin h]; exact And.intro (fun k hk => rotateRight_bit v n k hn hk) rfl

/-- The value of RRX: each bit moves down by one place, and the carry comes in at the top. -/
theorem rrx_getLsbD (v : Word) (cin : Bool) (k : Nat) (hk : k < 32) :
    (BitVec.ofBool cin ++ v.extractLsb' 1 31 : Word).getLsbD k = if k < 31 then v.getLsbD (k + 1) else cin := by
  rw [BitVec.getLsbD_append]
  by_cases h : k < 31
  · simp [h, Nat.add_comm]
  · simp [h, show k - 31 = 0 by omega]

/-! ### Register amounts (40_shifter_alu R357) -/

theorem shiftRegOp_zero (kind : ShiftKind) (v : Word) (cin : Bool) : shiftRegOp kind v 0 cin = (v, cin) := rfl

section
variable (v : Word) {n : Nat} (cin : Bool) (h : n ≠ 0)
include h

theorem shiftRegOp_lsl : shiftRegOp .lsl v n cin = if n < 32 then shiftImmOp .lsl v n cin
    else if n = 32 then (0#32, v.getLsbD 0) else (0#32, false) := by
  rw [shiftImmOp_lsl v cin h]; exact if_neg h

theorem shiftRegOp_lsr : shiftRegOp .lsr v n cin = if n < 32 then shiftImmOp .lsr v n cin
    else if n = 32 then (0#32, v.getLsbD 31) else (0#32, false) := by
  rw [shiftImmOp_lsr v cin h]; exact if_neg h

theorem shiftRegOp_asr : shiftRegOp .asr v n cin = if n < 32 then shiftImmOp .asr v n cin
    else (signWord v, v.getLsbD 31) := by
  rw [shiftImmOp_asr v cin h]; exact if_neg h

/-- A rotation by a nonzero multiple of 32 keeps the value; any other is one by the remainder mod 32. -/
theorem shiftRegOp_ror : shiftRegOp .ror v n cin = if n % 32 = 0 then (v, v.getLsbD 31)
    else shiftImmOp .ror v (n % 32) cin := by
  by_cases hm : n % 32 = 0
  · rw [if_pos hm]; exact (if_neg h).trans (if_pos hm)
  · rw [if_neg hm, shiftImmOp_ror v cin hm]; exact (if_neg h).trans (if_neg hm)

/-- A register amount of 1 to 31 is the immediate amount. -/
theorem shiftRegOp_eq_shiftImmOp (kind : ShiftKind) (hn : n < 32) :
    shiftRegOp kind v n cin = shiftImmOp kind v n cin := by
  cases kind with
  | lsl => exact (shiftRegOp_lsl v cin h).trans (if_pos hn)
  | lsr => exact (shiftRegOp_lsr v cin h).trans (if_pos hn)
  | asr => exact (shiftRegOp_asr v cin h).trans (if_pos hn)
  | ror =>
    have hm : n % 32 = n := Nat.mod_eq_of_lt hn
    rw [shiftRegOp_ror v cin h, hm, if_neg h]

end

/-- Settles O11: by the amount's range, where a register amount below 32 and a rotation by its remainder mod 32 are
immediate amounts. -/
theorem shifterResults : Obligations.ShifterResults := by
  unfold Obligations.ShifterResults
  refine ⟨fun kind v n cin hn => ?immediate, fun kind v n cin _ => ?register⟩
  case immediate =>
    obtain rfl | h0 := eq_or_ne n 0
    · cases kind with
      | lsl | lsr | asr => rfl
      | ror =>
        exact ⟨fun k hk => (rrx_getLsbD v cin k (by omega)).trans (if_pos hk), rrx_getLsbD v cin 31 (by decide), rfl⟩
    · rw [if_pos h0]
      exact shiftImmOp_shiftedBy kind v n cin h0 hn
  case register =>
    obtain rfl | ⟨h0, hlt⟩ | hge : n = 0 ∨ (n ≠ 0 ∧ n < 32) ∨ 32 ≤ n := by omega
    · exact shiftRegOp_zero kind v cin
    · rw [if_neg h0, if_pos hlt, shiftRegOp_eq_shiftImmOp v cin h0 kind hlt]
      exact shiftImmOp_shiftedBy kind v n cin h0 hlt
    · have h0 : n ≠ 0 := by omega
      have hlt : ¬ n < 32 := Nat.not_lt.mpr hge
      rw [if_neg h0, if_neg hlt]
      cases kind with
      | lsl => exact (shiftRegOp_lsl v cin h0).trans ((if_neg hlt).trans (apply_ite (Prod.mk 0#32) _ _ _).symm)
      | lsr => exact (shiftRegOp_lsr v cin h0).trans ((if_neg hlt).trans (apply_ite (Prod.mk 0#32) _ _ _).symm)
      | asr => exact (shiftRegOp_asr v cin h0).trans (if_neg hlt)
      | ror =>
        by_cases h : n % 32 = 0
        · rw [if_pos h, shiftRegOp_ror v cin h0, if_pos h]
        · rw [if_neg h, shiftRegOp_ror v cin h0, if_neg h]
          exact shiftImmOp_shiftedBy .ror v (n % 32) cin h (Nat.mod_lt n (by decide))

/-! ### The second operand (40_shifter_alu R355, R358, R365) -/

/-- A register reads as in an ARM instruction, except that the reader says what r15 reads as (10_state R62). -/
theorem readReg_eq_armReg (s : State) (x : Word) (i : RegNum) :
    s.readReg x i = if i = 15#4 then x else s.armReg i := by
  by_cases h : i = 15#4
  · rw [if_pos h, h, readReg_pc_number]
  · rw [if_neg h]; exact readReg_irrelevant s x _ i h

/-- The rotated immediate, bit by bit. -/
theorem rotatedImm_getLsbD (rot : BitVec 4) (imm8 : BitVec 8) (cin : Bool) (k : Nat) (hk : k < 32) :
    (rotatedImm rot imm8 cin).1.getLsbD k = (imm8.setWidth 32).getLsbD ((k + 2 * rot.toNat) % 32) :=
  rotateRight_bit _ _ k (by have := rot.isLt; omega) hk

/-- The low byte of a register, as a number. -/
theorem lowByte_toNat (v : Word) : (v.extractLsb' 0 8).toNat = v.toNat % 256 := by
  rw [BitVec.extractLsb'_toNat, Nat.shiftRight_zero]

/-- Settles O12: each form is the definition's own, with every register read through what r15 reads as. -/
theorem secondOperandForms : Obligations.SecondOperandForms := by
  unfold Obligations.SecondOperandForms
  refine fun s => ⟨fun rot imm8 => ⟨fun k hk => rotatedImm_getLsbD rot imm8 s.cpsr.c k hk, rfl⟩,
    fun rot imm8 rn => readReg_eq_armReg s _ rn, fun amount kind rm rn => ⟨?immediate, readReg_eq_armReg s _ rn⟩,
    fun rs kind rm rn => ⟨?register, readReg_eq_armReg s _ rn⟩⟩
  case immediate => rw [← readReg_eq_armReg]; rfl
  case register => rw [← readReg_eq_armReg, ← readReg_eq_armReg, ← lowByte_toNat]; rfl

end Sys2Proof.Proofs
end

section
/-! PROOFS. The ARM data-processing instructions: the writes of Rd, the tests, and the writes of r15
(41_arm_dataproc R400 to R415, R418 to R420; 60_exceptions R880). -/

namespace Sys2Proof.Proofs

open Sys2Proof.Machine Sys2Proof.Statements

/-! ### The sixteen operations (41_arm_dataproc R420) -/

section
variable {mk : DpForm} {op : DpOp} (hmk : (mk, op) ∈ dpWriters) {c : Cond} {s : State}
  (hc : condPassed c s.cpsr = true) {rn rd : RegNum} {op2 : Operand2}
include hmk hc

/-- An instruction of the table is the write of its operation. -/
theorem exec_dpWriter {setFlags : Bool} :
    exec (mk c setFlags rn rd op2) s = outcome (dpWrite op setFlags rn rd op2 s) := by
  have h : ∀ x ∈ dpWriters, exec (x.1 c setFlags rn rd op2) s = whenPassed c s (dpWrite x.2 setFlags rn rd op2) := by
    intro x hx
    fin_cases hx <;> rfl
  exact (h _ hmk).trans (whenPassed_true c s _ hc)

theorem exec_dpWriter_register (setFlags : Bool) (hrd : rd ≠ 15#4) (hi : op.ignoresRn = true → rn = 0#4) :
    ∃ t, exec (mk c setFlags rn rd op2) s = .next t ∧ t.armReg rd = (dpResult op rn op2 s).1 ∧
      t.cpsr = (if setFlags then (dpResult op rn op2 s).2 else s.cpsr) ∧ t.pc = s.pc + 4#32 ∧
      RegisterFrame [rd] s t := by
  have mode : (if setFlags then (dpResult op rn op2 s).2 else s.cpsr).mode = s.cpsr.mode := by
    cases setFlags
    · rfl
    · exact dpResult_mode op rn op2 s
  rw [exec_dpWriter hmk hc, dpWrite_next op setFlags rn rd op2 s hrd hi, outcome_ok]
  exact ⟨_, rfl, readReg_of_write s rd _ _ _ _ hrd mode, rfl, rfl, RegisterFrame.write s rd _ _ _⟩

theorem exec_dpWriter_branch (hi : op.ignoresRn = true → rn = 0#4) :
    exec (mk c false rn 15#4 op2) s = outcome (s.branchArm (dpResult op rn op2 s).1) := by
  rw [exec_dpWriter hmk hc, dpWrite_pc op false rn op2 s hi, if_neg Bool.false_ne_true]

theorem exec_dpWriter_return (hi : op.ignoresRn = true → rn = 0#4) :
    exec (mk c true rn 15#4 op2) s = outcome (s.returnFromException (dpResult op rn op2 s).1) := by
  rw [exec_dpWriter hmk hc, dpWrite_pc op true rn op2 s hi, if_pos rfl]

end

/-! ### Logical operations (40_shifter_alu R372) -/

theorem logicalResult_of {mk : DpForm} {usesRn : Bool} {f : Word → Word → Word} (op : DpOp)
    (hmk : (mk, op) ∈ dpWriters) (hi : op.ignoresRn = !usesRn)
    (hop : ∀ p a b sc, dpCompute op p a b sc = (f a b, logicalFlags p (f a b) sc)) : LogicalResult mk usesRn f := by
  intro c setFlags rn rd op2 s hc hrd hrn
  have result : dpResult op rn op2 s = _ := hop s.cpsr (firstOperand rn op2 s) _ _
  have h := exec_dpWriter_register hmk hc (op2 := op2) setFlags hrd fun e => hrn (by simpa [hi] using e)
  rwa [result] at h

/-- Settles O1: each of the six is a write of Rd whose operation computes the result and the logical flags. -/
theorem armLogicalOperations : Obligations.ArmLogicalOperations := by
  unfold Obligations.ArmLogicalOperations
  refine ⟨logicalResult_of .and ?_ rfl fun _ _ _ _ => rfl, logicalResult_of .eor ?_ rfl fun _ _ _ _ => rfl,
    logicalResult_of .orr ?_ rfl fun _ _ _ _ => rfl, logicalResult_of .bic ?_ rfl fun _ _ _ _ => rfl,
    logicalResult_of .mov ?_ rfl fun _ _ _ _ => rfl, logicalResult_of .mvn ?_ rfl fun _ _ _ _ => rfl⟩
  all_goals simp [dpWriters]

/-! ### Arithmetic operations (40_shifter_alu R371, R373) -/

/-- The result, carry and overflow that a meaning says. -/
def aluResultOf (m : ArithmeticMeaning) (a b : Word) (c : Bool) : AluResult :=
  { result := m.result a b c
    carry := m.carry a b c
    overflow := decide ((m.result a b c).toInt ≠ m.exact a b c) }

theorem setArithmetic_aluResultOf (m : ArithmeticMeaning) (p : Cpsr) (a b : Word) :
    p.setArithmetic (aluResultOf m a b p.c) = m.flags p a b := rfl

theorem aluAdc_eq_addition (cin : Bool → Bool) (a b : Word) (c : Bool) :
    aluAdc a b (cin c) = aluResultOf (additionMeaning cin) a b c := aluAdc_eq a b (cin c)

/-- The carry into a subtraction is the complement of its borrow. -/
theorem aluSbc_eq_subtraction (borrow : Bool → Bool) (a b : Word) (c : Bool) :
    aluSbc a b (!borrow c) = aluResultOf (subtractionMeaning borrow) a b c := by
  have h := aluSbc_eq a b (!borrow c)
  rwa [Bool.not_not] at h

theorem aluAdd_eq_addition (a b : Word) (c : Bool) :
    aluAdd a b = aluResultOf (additionMeaning fun _ => false) a b c := aluAdc_eq_addition (fun _ => false) a b c

theorem aluSub_eq_subtraction (a b : Word) (c : Bool) :
    aluSub a b = aluResultOf (subtractionMeaning fun _ => false) a b c := aluSbc_eq_subtraction (fun _ => false) a b c

theorem aluSbc_eq_subtraction_not (a b : Word) (c : Bool) :
    aluSbc a b c = aluResultOf (subtractionMeaning not) a b c := by
  have h := aluSbc_eq_subtraction not a b c
  rwa [Bool.not_not] at h

theorem arithmeticResult_of {mk : DpForm} {m : ArithmeticMeaning} (op : DpOp) (alu : Word → Word → Bool → AluResult)
    (hmk : (mk, op) ∈ dpWriters) (hi : op.ignoresRn = false)
    (hop : ∀ p a b sc, dpCompute op p a b sc = ((alu a b p.c).result, p.setArithmetic (alu a b p.c)))
    (halu : ∀ a b c, alu a b c = aluResultOf m a b c) : ArithmeticResult mk m := by
  intro c setFlags rn rd op2 s hc hrd
  have result : dpResult op rn op2 s = _ := hop s.cpsr (firstOperand rn op2 s) _ _
  have usesRn : op.ignoresRn = true → rn = 0#4 := fun e => absurd (hi.symm.trans e) Bool.false_ne_true
  have h := exec_dpWriter_register hmk hc (op2 := op2) setFlags hrd usesRn
  rwa [result, halu] at h

/-- Settles O2: each of the six is a write of Rd whose operation is a primitive of R371, which is an addition or a
subtraction of integers. -/
theorem armArithmeticOperations : Obligations.ArmArithmeticOperations := by
  unfold Obligations.ArmArithmeticOperations
  refine ⟨arithmeticResult_of .add (fun a b _ => aluAdd a b) ?_ rfl (fun _ _ _ _ => rfl) aluAdd_eq_addition,
    arithmeticResult_of .adc aluAdc ?_ rfl (fun _ _ _ _ => rfl) (aluAdc_eq_addition id),
    arithmeticResult_of .sub (fun a b _ => aluSub a b) ?_ rfl (fun _ _ _ _ => rfl) aluSub_eq_subtraction,
    arithmeticResult_of .sbc aluSbc ?_ rfl (fun _ _ _ _ => rfl) aluSbc_eq_subtraction_not,
    arithmeticResult_of .rsb (fun a b _ => aluRsb a b) ?_ rfl (fun _ _ _ _ => rfl)
      fun a b => aluSub_eq_subtraction b a,
    arithmeticResult_of .rsc aluRsc ?_ rfl (fun _ _ _ _ => rfl) fun a b => aluSbc_eq_subtraction_not b a⟩
  all_goals simp [dpWriters]

/-! ### Tests (41_arm_dataproc R410 to R413) -/

theorem testResult_of {mk : TestForm} {flags : Cpsr → Word → Word → Bool → Cpsr} (op : DpOp)
    (hmk : ∀ c rn op2 s, exec (mk c rn 0#4 op2) s = whenPassed c s (dpTest op rn 0#4 op2))
    (hop : ∀ p a b sc, (dpCompute op p a b sc).2 = flags p a b sc) : TestResult mk flags := by
  intro c rn op2 s hc
  refine ⟨{ s with cpsr := (dpResult op rn op2 s).2, pc := s.pc + 4#32 }, ?_, hop _ _ _ _, rfl,
    RegisterFrame.status s _ _ []⟩
  rw [hmk, whenPassed_true c s _ hc]
  rfl

/-- Settles O3: each of the four sets the flags its operation computes and writes nothing else. -/
theorem armTestOperations : Obligations.ArmTestOperations := by
  unfold Obligations.ArmTestOperations
  refine ⟨testResult_of .tst (fun _ _ _ _ => rfl) fun _ _ _ _ => rfl,
    testResult_of .teq (fun _ _ _ _ => rfl) fun _ _ _ _ => rfl,
    testResult_of .cmp (fun _ _ _ _ => rfl) fun p a b _ => ?cmp,
    testResult_of .cmn (fun _ _ _ _ => rfl) fun p a b _ => ?cmn⟩
  case cmp => exact (congrArg p.setArithmetic (aluSub_eq_subtraction a b p.c)).trans (setArithmetic_aluResultOf _ p a b)
  case cmn => exact (congrArg p.setArithmetic (aluAdd_eq_addition a b p.c)).trans (setArithmetic_aluResultOf _ p a b)

/-! ### Writes of r15 (41_arm_dataproc R408, R409; 60_exceptions R880) -/

theorem branchArm_eq_ite (s : State) (v : Word) : s.branchArm v =
    if v.extractLsb' 0 2 = 0#2 then .ok { s with pc := v } else .error .unalignedArmPcWrite := by
  by_cases h : v.extractLsb' 0 2 = 0#2
  · rw [if_pos h, State.branchArm, decide_eq_false (not_not.mpr h), refuseIf_false]
  · rw [if_neg h, State.branchArm, decide_eq_true h, refuseIf_true]

/-- Settles O4: the write is the branch of R408 to the result of the operation. -/
theorem armDataProcessingBranch : Obligations.ArmDataProcessingBranch := by
  unfold Obligations.ArmDataProcessingBranch
  intro x hx c rn op2 s hc hi
  rw [exec_dpWriter_branch hx hc hi, branchArm_eq_ite]
  by_cases h : (dpResult x.2 rn op2 s).1.extractLsb' 0 2 = 0#2
  · rw [if_pos h, if_pos h]
    exact ⟨_, rfl, rfl, rfl, RegisterFrame.status s s.cpsr _ []⟩
  · rw [if_neg h, if_neg h, outcome_error]

theorem legalModeBits_eq_isSome : ∀ b, legalModeBits b = (Mode.ofBits? b).isSome := by decide

theorem ofBits?_of_illegal {b : BitVec 5} (h : legalModeBits b = false) : Mode.ofBits? b = none := by
  rwa [legalModeBits_eq_isSome, Option.isSome_eq_false_iff, Option.isNone_iff_eq_none] at h

theorem ofBits?_of_legal {b : BitVec 5} (h : ¬ legalModeBits b = false) : ∃ m, Mode.ofBits? b = some m := by
  rwa [legalModeBits_eq_isSome, Bool.not_eq_false, Option.isSome_iff_exists] at h

section
variable {s : State} (res : Word)

theorem returnFromException_eq_bind : s.returnFromException res =
    s.restoreCpsr.bind fun t => if t.cpsr.t then .ok (t.branchThumb res) else t.branchArm res := rfl

theorem returnFromException_of_noSpsr (h : s.spsrs.get? s.cpsr.mode = none) :
    s.returnFromException res = .error .noSpsrInMode := by
  have restore : s.restoreCpsr = .error .noSpsrInMode := by simp only [State.restoreCpsr, h]
  rw [returnFromException_eq_bind, restore]
  rfl

theorem returnFromException_of_illegalMode {v : Word} (h : s.spsrs.get? s.cpsr.mode = some v)
    (hv : legalModeBits (v.extractLsb' 0 5) = false) : s.returnFromException res = .error .illegalMode := by
  have restore : s.restoreCpsr = .error .illegalMode := by simp only [State.restoreCpsr, h, ofBits?_of_illegal hv]
  rw [returnFromException_eq_bind, restore]
  rfl

/-- A return to a legal mode branches in the restored processor state. -/
theorem returnFromException_of_legalMode {v : Word} {m : Mode} (h : s.spsrs.get? s.cpsr.mode = some v)
    (hm : Mode.ofBits? (v.extractLsb' 0 5) = some m) : s.returnFromException res =
      if v.getLsbD 5 then .ok ({ s with cpsr := Cpsr.ofWord v m }.branchThumb res)
      else { s with cpsr := Cpsr.ofWord v m }.branchArm res := by
  rw [returnFromException_eq_bind, restoreCpsr_ok s v m h hm]
  rfl

end

/-- Settles O6: the write is the return of R409, by the SPSR of the mode, its mode field and the restored T. -/
theorem armExceptionReturn : Obligations.ArmExceptionReturn := by
  unfold Obligations.ArmExceptionReturn
  intro x hx c rn op2 s hc hi
  rw [exec_dpWriter_return hx hc hi]
  generalize (dpResult x.2 rn op2 s).1 = res
  refine ⟨fun hv => by rw [returnFromException_of_noSpsr res hv, outcome_error], fun v hv => ?_⟩
  by_cases hl : legalModeBits (v.extractLsb' 0 5) = false
  · rw [if_pos hl, returnFromException_of_illegalMode res hv hl, outcome_error]
  · obtain ⟨m, hm⟩ := ofBits?_of_legal hl
    have restored : (Cpsr.ofWord v m).toWord = restoredWord v := ofWord_toWord v m hm
    rw [if_neg hl, returnFromException_of_legalMode res hv hm]
    cases ht : v.getLsbD 5
    case true => exact ⟨_, rfl, restored, rfl, RegisterFrame.status s _ _ []⟩
    case false =>
      by_cases ha : res.extractLsb' 0 2 = 0#2
      · rw [if_neg (fun e => e.2 ha), if_neg Bool.false_ne_true, branchArm_eq_ite, if_pos ha]
        exact ⟨_, rfl, restored, rfl, RegisterFrame.status s _ _ []⟩
      · rw [if_pos ⟨rfl, ha⟩, if_neg Bool.false_ne_true, branchArm_eq_ite, if_neg ha, outcome_error]

end Sys2Proof.Proofs
end

section
/-! PROOFS. MRS and MSR (41_arm_dataproc R416, R417; 10_state R57, R59; 60_exceptions R885). -/

namespace Sys2Proof.Proofs

open Sys2Proof.Machine Sys2Proof.Statements

/-! ### MRS (41_arm_dataproc R416) -/

theorem exec_armMrs {c : Cond} {s : State} (hc : condPassed c s.cpsr = true) (spsr : Bool) (rd : RegNum) :
    exec (.armMrs c spsr 15#4 rd 0#4 0#4) s = outcome (mrsBody spsr 15#4 rd 0#4 0#4 s) :=
  whenPassed_true c s _ hc

/-- The body of MRS once its fixed fields are as they should be. -/
theorem mrsBody_eq (spsr : Bool) (rd : RegNum) (s : State) : mrsBody spsr 15#4 rd 0#4 0#4 s =
    refuseIf (decide (rd = 15#4)) .mrsToPc (if spsr then
      (s.spsrs.get? s.cpsr.mode).elim (.error .noSpsrInMode) fun v => .ok (s.writeReg rd v).advance4
    else .ok (s.writeReg rd s.cpsr.toWord).advance4) := by
  rw [mrsBody]
  cases s.spsrs.get? s.cpsr.mode <;> rfl

/-- What an instruction that writes one register and goes on has done. -/
theorem writeReg_advance4 {rd : RegNum} (hrd : rd ≠ 15#4) (s : State) (v : Word) :
    (s.writeReg rd v).advance4.armReg rd = v ∧
    (s.writeReg rd v).advance4.cpsr = s.cpsr ∧ (s.writeReg rd v).advance4.pc = s.pc + 4#32 ∧
    RegisterFrame [rd] s (s.writeReg rd v).advance4 := by
  have whole : (s.writeReg rd v).advance4 = { (s.writeReg rd v) with cpsr := s.cpsr, pc := s.pc + 4#32 } := by
    simp [State.advance4]
  rw [whole]
  exact ⟨readReg_of_write s rd v _ _ _ hrd rfl, rfl, rfl, RegisterFrame.write s rd v _ _⟩

/-- Settles O7: MRS writes the status word it reads, and refuses r15 before it looks for an SPSR. -/
theorem mrsResult : Obligations.MrsResult := by
  unfold Obligations.MrsResult
  intro c rd s hc
  simp only [exec_armMrs hc, mrsBody_eq]
  refine ⟨fun _ => rfl, fun hrd => ?_⟩
  rw [decide_eq_false hrd]
  refine ⟨⟨_, rfl, writeReg_advance4 hrd s _⟩, fun h => ?none, fun v h => ?saved⟩
  all_goals rw [h]
  case none => rfl
  case saved => exact ⟨_, rfl, writeReg_advance4 hrd s v⟩

/-! ### The two forms of MSR (41_arm_dataproc R417) -/

theorem exec_armMsrReg {c : Cond} {s : State} (hc : condPassed c s.cpsr = true) (spsr : Bool) (mask : BitVec 4)
    (rm : RegNum) : exec (.armMsrReg c spsr mask 15#4 0#4 rm) s =
      outcome (refuseIf (decide (rm = 15#4)) .msrFromPc (msrWrite spsr mask (s.armReg rm) s)) := by
  show execArmMsrReg c spsr mask 15#4 0#4 rm s = _
  rw [execArmMsrReg, whenPassed_true c s _ hc]
  rfl

theorem exec_armMsrImm {c : Cond} {s : State} (hc : condPassed c s.cpsr = true) (spsr : Bool) (mask rot : BitVec 4)
    (imm8 : BitVec 8) : exec (.armMsrImm c spsr mask 15#4 rot imm8) s =
      outcome (msrWrite spsr mask (rotatedImm rot imm8 s.cpsr.c).1 s) := by
  show execArmMsrImm c spsr mask 15#4 rot imm8 s = _
  rw [execArmMsrImm, whenPassed_true c s _ hc]
  rfl

/-- Both forms write their value by the mask. -/
theorem exec_of_isMsr {mk : Instr} {c : Cond} {spsr : Bool} {mask : BitVec 4} {s : State} {v : Word}
    (hc : condPassed c s.cpsr = true) (h : IsMsr mk c spsr mask s v) :
    exec mk s = outcome (msrWrite spsr mask v s) := by
  obtain ⟨rm, hrm, rfl, rfl⟩ | ⟨rot, imm8, rfl, rfl⟩ := h
  · rw [exec_armMsrReg hc, decide_eq_false hrm, refuseIf_false]
  · exact exec_armMsrImm hc spsr mask rot imm8

/-! ### MSR to CPSR (41_arm_dataproc R417; 60_exceptions R885) -/

/-- Whether MSR writes bits 7..0 of CPSR. -/
def writesControl (mask : BitVec 4) (m : Mode) : Bool := m.privileged && mask.getLsbD 0

theorem writesControl_eq_false_iff (mask : BitVec 4) (m : Mode) :
    writesControl mask m = false ↔ m = .user ∨ mask.getLsbD 0 = false := by
  cases m <;> simp [writesControl, Mode.privileged]

theorem msrCpsrMask_getLsbD (mask : BitVec 4) (m : Mode) : ∀ i < 32, (msrCpsrMask mask m).getLsbD i =
    ((decide (28 ≤ i) && mask.getLsbD 3) || (decide (i < 8) && writesControl mask m)) := by
  intro i hi
  have flags : ∀ j < 32, (0xF0000000#32).getLsbD j = decide (28 ≤ j) := by decide
  rw [msrCpsrMask, writesControl]
  cases m.privileged
  case false =>
    rw [if_neg Bool.false_ne_true, BitVec.getLsbD_and, msrByteMask_getLsbD mask i hi, flags i hi]
    by_cases h : 28 ≤ i
    · simp [h, show ¬ i < 8 by omega]
    · simp [h]
  case true => rw [if_pos rfl, msrByteMask_getLsbD mask i hi, Bool.true_and]

/-- The word MSR makes of a CPSR. -/
def msrStatus (mask : BitVec 4) (v : Word) (p : Cpsr) : Word := mergeMasked p.toWord v (msrCpsrMask mask p.mode)

section
variable (mask : BitVec 4) (v : Word) (p : Cpsr)

theorem msrStatus_getLsbD (i : Nat) (hi : i < 32) : (msrStatus mask v p).getLsbD i =
    if (decide (28 ≤ i) && mask.getLsbD 3) || (decide (i < 8) && writesControl mask p.mode) then v.getLsbD i
    else p.toWord.getLsbD i := by
  rw [msrStatus, mergeMasked_getLsbD _ _ _ i hi, msrCpsrMask_getLsbD _ _ i hi]

theorem msrStatus_flag (i : Nat) (h : 28 ≤ i) (hi : i < 32) :
    (msrStatus mask v p).getLsbD i = if mask.getLsbD 3 then v.getLsbD i else p.toWord.getLsbD i := by
  rw [msrStatus_getLsbD _ _ _ i hi, decide_eq_true h, decide_eq_false (by omega : ¬ i < 8), Bool.true_and,
    Bool.false_and, Bool.or_false]

theorem msrStatus_control (i : Nat) (hi : i < 8) :
    (msrStatus mask v p).getLsbD i = if writesControl mask p.mode then v.getLsbD i else p.toWord.getLsbD i := by
  rw [msrStatus_getLsbD _ _ _ i (by omega), decide_eq_true hi, decide_eq_false (by omega : ¬ 28 ≤ i), Bool.true_and,
    Bool.false_and, Bool.false_or]

theorem msrStatus_mode : (msrStatus mask v p).extractLsb' 0 5 =
    if writesControl mask p.mode then v.extractLsb' 0 5 else p.mode.bits := by
  rw [← toWord_mode, ← apply_ite (BitVec.extractLsb' 0 5)]
  apply BitVec.eq_of_getLsbD_eq
  intro i hi
  have bit := msrStatus_control mask v p i (by omega)
  rw [← apply_ite (BitVec.getLsbD · i)] at bit
  simp only [BitVec.getLsbD_extractLsb', Nat.zero_add, bit]

/-- Each field of the CPSR that MSR leaves is the operand's or the old one. -/
theorem ofWord_msrStatus (m : Mode) : Cpsr.ofWord (msrStatus mask v p) m =
    { n := if mask.getLsbD 3 then v.getLsbD 31 else p.n
      z := if mask.getLsbD 3 then v.getLsbD 30 else p.z
      c := if mask.getLsbD 3 then v.getLsbD 29 else p.c
      v := if mask.getLsbD 3 then v.getLsbD 28 else p.v
      i := if writesControl mask p.mode then v.getLsbD 7 else p.i
      t := if writesControl mask p.mode then v.getLsbD 5 else p.t
      mode := m } := by
  have flag := msrStatus_flag mask v p
  have control := msrStatus_control mask v p
  have old := toWord_getLsbD p
  rw [Cpsr.ofWord, flag 31 (by decide) (by decide), flag 30 (by decide) (by decide), flag 29 (by decide) (by decide),
    flag 28 (by decide) (by decide), control 7 (by decide), control 5 (by decide), old 31 (by decide),
    old 30 (by decide), old 29 (by decide), old 28 (by decide), old 7 (by decide), old 5 (by decide)]
  rfl

theorem msrStatus_t : (msrStatus mask v p).getLsbD 5 = if writesControl mask p.mode then v.getLsbD 5 else p.t :=
  congrArg Cpsr.t (ofWord_msrStatus mask v p p.mode)

end

/-- MSR to CPSR by the word it makes: T must stay, and the mode field must name a mode. -/
theorem msrCpsr_eq (mask : BitVec 4) (v : Word) (s : State) : msrCpsr mask v s =
    refuseIf (decide ((msrStatus mask v s.cpsr).getLsbD 5 ≠ s.cpsr.t)) .msrChangesT
      ((Mode.ofBits? ((msrStatus mask v s.cpsr).extractLsb' 0 5)).elim (.error .illegalMode) fun m =>
        .ok { s with cpsr := Cpsr.ofWord (msrStatus mask v s.cpsr) m, pc := s.pc + 4#32 }) := by
  rw [msrCpsr, ← msrStatus]
  cases Mode.ofBits? ((msrStatus mask v s.cpsr).extractLsb' 0 5) <;> rfl

/-- Settles O8: the flags come by mask bit 3; without the control bits T and the mode stay, with them they are the
operand's. -/
theorem msrToStatus : Obligations.MsrToStatus := by
  unfold Obligations.MsrToStatus
  refine ⟨fun c spsr mask s hc => exec_armMsrReg hc spsr mask 15#4, fun mk c mask s v hc h => ?_⟩
  have thumb := msrStatus_t mask v s.cpsr
  have mode := msrStatus_mode mask v s.cpsr
  have fields := ofWord_msrStatus mask v s.cpsr
  have run : exec mk s = outcome (msrCpsr mask v s) := exec_of_isMsr hc h
  have kept := writesControl_eq_false_iff mask s.cpsr.mode
  rw [run, msrCpsr_eq, thumb, mode]
  cases hw : writesControl mask s.cpsr.mode <;> rw [hw] at fields kept
  case false =>
    have old : Mode.ofBits? s.cpsr.mode.bits = some s.cpsr.mode := (ofBits?_eq_some _ _).mpr rfl
    rw [if_pos (kept.mp rfl), if_neg Bool.false_ne_true, if_neg Bool.false_ne_true,
      decide_eq_false (not_not.mpr rfl), old]
    exact ⟨_, rfl, (fields _).trans (by cases mask.getLsbD 3 <;> rfl), rfl, RegisterFrame.status s _ _ []⟩
  case true =>
    rw [if_neg (mt kept.mpr Bool.false_ne_true.symm), if_pos rfl, if_pos rfl]
    by_cases ht : v.getLsbD 5 = s.cpsr.t
    · rw [if_neg (not_not.mpr ht), decide_eq_false (not_not.mpr ht)]
      by_cases hl : legalModeBits (v.extractLsb' 0 5) = false
      · rw [if_pos hl, ofBits?_of_illegal hl]
        rfl
      · obtain ⟨m, hm⟩ := ofBits?_of_legal hl
        rw [if_neg hl, hm, Option.elim_some, fields]
        refine ⟨_, rfl, (ofBits?_eq_some _ _).mp hm, rfl, ht, ?_, rfl, RegisterFrame.status s _ _ []⟩
        cases mask.getLsbD 3 <;> exact ⟨rfl, rfl, rfl, rfl⟩
    · rw [if_pos ht, decide_eq_true ht]
      rfl

/-! ### MSR to SPSR (41_arm_dataproc R417; 10_state R59) -/

/-- Settles O9: the masked bits of the SPSR of the mode are the operand's, and nothing else is written. -/
theorem msrToSaved : Obligations.MsrToSaved := by
  unfold Obligations.MsrToSaved
  intro mk c mask s v hc h
  rw [exec_of_isMsr hc h, msrWrite, if_pos rfl, msrSpsr]
  refine ⟨fun hv => by rw [hv, outcome_error], fun old hv => ?_⟩
  rw [hv]
  refine ⟨_, mergeMasked old v (msrByteMask mask), rfl, spsrs_set_same _ _ _ old hv, fun k hk => ?bits,
    fun m hm => spsrs_set_ne _ _ m _ hm, rfl, rfl, RegisterFrame.status { s with spsrs := _ } s.cpsr _ []⟩
  case bits => rw [mergeMasked_getLsbD old v _ k hk, msrByteMask_getLsbD mask k hk]; rfl

end Sys2Proof.Proofs
end

section
/-! PROOFS. The six multiplies (42_arm_multiply_swap R450 to R457). -/

namespace Sys2Proof.Proofs

open Sys2Proof.Machine Sys2Proof.Statements

/-! ### A body behind the test of its operands -/

/-- An instruction that tests its operands first is refused, or does what the rest of its body does. -/
theorem refused_or {i : Instr} {s : State} {test : Bool} {reason : Refusal} {rest : Except Refusal State}
    {forbidden done : Prop} [Decidable forbidden] (run : exec i s = outcome (refuseIf test reason rest))
    (htest : test = true ↔ forbidden) (hrest : ¬ forbidden → exec i s = outcome rest → done) :
    if forbidden then exec i s = .refused reason else done := by
  by_cases h : forbidden
  · rw [if_pos h, run, htest.mpr h, refuseIf_true, outcome_error]
  · rw [if_neg h]
    refine hrest h ?_
    rw [run, Bool.eq_false_of_not_eq_true (mt htest.mp h), refuseIf_false]

/-! ### Two registers written, then CPSR and PC -/

theorem keepsAllButCpu_writeReg (s : State) (i : RegNum) (v : Word) : KeepsAllButCpu s (s.writeReg i v) := by
  constructor
  · constructor <;> simp
  all_goals simp

section
variable (s : State) {i j : RegNum} (v w : Word) {p : Cpsr} (pc : Word)

/-- CPSR and PC do not matter for a register that is read in the same mode. -/
theorem readReg_status (hm : p.mode = s.cpsr.mode) (x : Word) :
    State.readReg { s with cpsr := p, pc := pc } x i = s.readReg x i := by
  rw [State.readReg, hm]
  exact readRegMode_congr rfl _ _ _

/-- Of two different registers written, each reads back. -/
theorem armReg_writeReg_writeReg (hi : i ≠ 15#4) (hj : j ≠ 15#4) (hij : i ≠ j) (hm : p.mode = s.cpsr.mode) :
    State.armReg { ((s.writeReg i v).writeReg j w) with cpsr := p, pc := pc } i = v ∧
    State.armReg { ((s.writeReg i v).writeReg j w) with cpsr := p, pc := pc } j = w := by
  have mode : p.mode = ((s.writeReg i v).writeReg j w).cpsr.mode := by simpa using hm
  simp only [State.armReg, readReg_status _ _ mode]
  exact ⟨(readReg_writeReg_ne _ _ w j i hij).trans (readReg_writeReg_same s _ v i hi),
    readReg_writeReg_same _ _ w j hj⟩

theorem registerFrame_write_write (p : Cpsr) :
    RegisterFrame [j, i] s { ((s.writeReg i v).writeReg j w) with cpsr := p, pc := pc } := by
  have first := KeepsRegistersBut.writeReg s i v [j, i] (by simp)
  have second := KeepsRegistersBut.writeReg (s.writeReg i v) j w [j, i] (by simp)
  have registers := first.trans second (by rw [writeReg_cpsr])
  have rest := (keepsAllButCpu_writeReg s i v).trans (RegisterFrame.write (s.writeReg i v) j w p pc).rest
  exact .of (registers.congr rfl) rest

end

/-! ### MUL and MLA (42_arm_multiply_swap R450, R451, R456, R457) -/

theorem multiplyDone_of_write {i : Instr} {setFlags : Bool} {rd : RegNum} {res : Word} {s : State} (hrd : rd ≠ 15#4)
    (run : exec i s = .next (multiplyWrite setFlags rd res s)) : MultiplyDone i setFlags rd res s :=
  ⟨_, Config.multiplyCarry s.draws, run, readReg_of_write s rd res _ _ _ hrd (by cases setFlags <;> rfl), rfl, rfl,
    RegisterFrame.write s rd res _ _⟩

theorem multiplyForbidden_iff (rd rn rs rm : RegNum) : multiplyForbidden rd rn rs rm = true ↔
    rd = 15#4 ∨ rn = 15#4 ∨ rs = 15#4 ∨ rm = 15#4 ∨ rd = rm := by
  simp only [multiplyForbidden, Bool.or_eq_true, decide_eq_true_eq, or_assoc]

/-- MUL has no accumulator, which r0 stands for in the test of the operands. -/
theorem multiplyForbidden_zero_iff (rd rs rm : RegNum) : multiplyForbidden rd 0#4 rs rm = true ↔
    rd = 15#4 ∨ rs = 15#4 ∨ rm = 15#4 ∨ rd = rm := by
  have r0 : (0#4 : RegNum) ≠ 15#4 := by decide
  rw [multiplyForbidden_iff, or_iff_right r0]

section
variable {c : Cond} {s : State} (hc : condPassed c s.cpsr = true) (setFlags : Bool) (rd rn rs rm : RegNum)
include hc

/-- MUL with its fixed field 0 (30_encoding R254). -/
theorem exec_armMul : exec (.armMul c setFlags rd 0#4 rs rm) s =
    outcome (refuseIf (multiplyForbidden rd 0#4 rs rm) .multiplyOperands
      (.ok (multiplyWrite setFlags rd (s.armReg rm * s.armReg rs) s))) := by
  rw [exec, execArmMul, whenPassed_true c s _ hc]
  rfl

theorem exec_armMla : exec (.armMla c setFlags rd rn rs rm) s =
    outcome (refuseIf (multiplyForbidden rd rn rs rm) .multiplyOperands
      (.ok (multiplyWrite setFlags rd (s.armReg rm * s.armReg rs + s.armReg rn) s))) := by
  rw [exec, execArmMla, whenPassed_true c s _ hc]

end

theorem word_mul_eq (a b : Word) : a * b = BitVec.ofNat 32 (a.toNat * b.toNat) := by
  rw [BitVec.ofNat_mul, BitVec.ofNat_toNat, BitVec.ofNat_toNat, BitVec.setWidth_eq, BitVec.setWidth_eq]

theorem word_mul_add_eq (a b c : Word) : a * b + c = BitVec.ofNat 32 (a.toNat * b.toNat + c.toNat) := by
  rw [BitVec.ofNat_add, ← word_mul_eq, BitVec.ofNat_toNat, BitVec.setWidth_eq]

/-! ### The long multiplies (42_arm_multiply_swap R452 to R457) -/

theorem multiplyLongForbidden_iff (rdHi rdLo rs rm : RegNum) : multiplyLongForbidden rdHi rdLo rs rm = true ↔
    rdHi = 15#4 ∨ rdLo = 15#4 ∨ rs = 15#4 ∨ rm = 15#4 ∨ rdHi = rdLo ∨ rdHi = rm ∨ rdLo = rm := by
  simp only [multiplyLongForbidden, Bool.or_eq_true, decide_eq_true_eq, or_assoc]

theorem multiplyLongDone_of_write {i : Instr} {setFlags : Bool} {rdHi rdLo : RegNum} {res : BitVec 64} {s : State}
    (hhi : rdHi ≠ 15#4) (hlo : rdLo ≠ 15#4) (hne : rdHi ≠ rdLo)
    (run : exec i s = .next (multiplyLongWrite setFlags rdHi rdLo res s)) :
    MultiplyLongDone i setFlags rdHi rdLo res s := by
  obtain ⟨low, high⟩ := armReg_writeReg_writeReg s (res.extractLsb' 0 32) (res.extractLsb' 32 32) (s.pc + 4#32) hlo hhi
    hne.symm (p := if setFlags then s.cpsr.setMultiplyLong res s.draws else s.cpsr) (by cases setFlags <;> rfl)
  refine ⟨_, Config.multiplyCarry s.draws, Config.multiplyOverflow s.draws, run, ?result, rfl, rfl,
    registerFrame_write_write s _ _ _ _⟩
  case result =>
    rw [multiplyLongWrite, high, low]
    exact BitVec.extractLsb'_append_extractLsb'

/-- RdHi : RdLo as a number. -/
theorem longAccumulator_eq (rdHi rdLo : RegNum) (s : State) : longAccumulator rdHi rdLo s =
    BitVec.ofNat 64 ((s.armReg rdHi).toNat * 2 ^ 32 + (s.armReg rdLo).toNat) := by
  rw [longAccumulator, Nat.add_comm (_ * _), Nat.mul_comm (BitVec.toNat _), ← append_toNat, BitVec.ofNat_toNat]
  exact (BitVec.setWidth_eq _).symm

/-- What a long multiply computes: the product, with RdHi : RdLo added in the accumulating forms. -/
def longResult (signed accumulate : Bool) (rdHi rdLo rs rm : RegNum) (s : State) : BitVec 64 :=
  longProduct signed (s.armReg rm) (s.armReg rs) + if accumulate then longAccumulator rdHi rdLo s else 0#64

section
variable (rdHi rdLo rs rm : RegNum) (s : State)

theorem longResult_umull : longResult false false rdHi rdLo rs rm s =
    BitVec.ofNat 64 ((s.armReg rm).toNat * (s.armReg rs).toNat) := BitVec.add_zero _

theorem longResult_umlal : longResult false true rdHi rdLo rs rm s =
    BitVec.ofNat 64 ((s.armReg rm).toNat * (s.armReg rs).toNat +
      ((s.armReg rdHi).toNat * 2 ^ 32 + (s.armReg rdLo).toNat)) := by
  rw [BitVec.ofNat_add, ← longAccumulator_eq]
  rfl

theorem longResult_smull : longResult true false rdHi rdLo rs rm s =
    BitVec.ofInt 64 ((s.armReg rm).toInt * (s.armReg rs).toInt) := BitVec.add_zero _

theorem longResult_smlal : longResult true true rdHi rdLo rs rm s =
    BitVec.ofInt 64 ((s.armReg rm).toInt * (s.armReg rs).toInt +
      ((s.armReg rdHi).toNat * 2 ^ 32 + (s.armReg rdLo).toNat : Nat)) := by
  rw [BitVec.ofInt_add, BitVec.ofInt_natCast, ← longAccumulator_eq]
  rfl

end

section
variable {signed accumulate setFlags : Bool} {rdHi rdLo rs rm : RegNum} {s : State}

theorem multiplyLong_eq : multiplyLong signed accumulate setFlags rdHi rdLo rs rm s =
    refuseIf (multiplyLongForbidden rdHi rdLo rs rm) .multiplyOperands
      (.ok (multiplyLongWrite setFlags rdHi rdLo (longResult signed accumulate rdHi rdLo rs rm s) s)) := rfl

theorem multiplyLong_of_forbidden (h : multiplyLongForbidden rdHi rdLo rs rm = true) :
    multiplyLong signed accumulate setFlags rdHi rdLo rs rm s = .error .multiplyOperands := by
  rw [multiplyLong_eq, h, refuseIf_true]

theorem multiplyLongDone_of_allowed {i : Instr} {res : BitVec 64}
    (run : exec i s = outcome (multiplyLong signed accumulate setFlags rdHi rdLo rs rm s))
    (h : ¬ multiplyLongForbidden rdHi rdLo rs rm = true)
    (hres : longResult signed accumulate rdHi rdLo rs rm s = res) : MultiplyLongDone i setFlags rdHi rdLo res s := by
  have allowed := mt (multiplyLongForbidden_iff rdHi rdLo rs rm).mpr h
  simp only [not_or] at allowed
  obtain ⟨hhi, hlo, -, -, hne, -, -⟩ := allowed
  rw [multiplyLong_eq, Bool.eq_false_of_not_eq_true h, refuseIf_false, hres, outcome_ok] at run
  exact multiplyLongDone_of_write hhi hlo hne run

end

/-- Settles O13: MUL and MLA end in the write of one register, the long forms in the write of two, behind the test of
the operands. -/
theorem multiplyResults : Obligations.MultiplyResults := by
  unfold Obligations.MultiplyResults
  refine ⟨fun c setFlags rd rn rs rm s hc => ⟨?mul, ?mla⟩, fun c setFlags rdHi rdLo rs rm s hc => ?long⟩
  case mul =>
    refine refused_or (exec_armMul hc setFlags rd rs rm) (multiplyForbidden_zero_iff rd rs rm) fun h run => ?_
    rw [← word_mul_eq]
    exact multiplyDone_of_write (fun e => h (.inl e)) run
  case mla =>
    refine refused_or (exec_armMla hc setFlags rd rn rs rm) (multiplyForbidden_iff rd rn rs rm) fun h run => ?_
    rw [← word_mul_add_eq]
    exact multiplyDone_of_write (fun e => h (.inl e)) run
  case long =>
    have umull : exec (.armUmull c setFlags rdHi rdLo rs rm) s = _ := whenPassed_true c s _ hc
    have umlal : exec (.armUmlal c setFlags rdHi rdLo rs rm) s = _ := whenPassed_true c s _ hc
    have smull : exec (.armSmull c setFlags rdHi rdLo rs rm) s = _ := whenPassed_true c s _ hc
    have smlal : exec (.armSmlal c setFlags rdHi rdLo rs rm) s = _ := whenPassed_true c s _ hc
    simp only [← multiplyLongForbidden_iff]
    by_cases h : multiplyLongForbidden rdHi rdLo rs rm = true
    · rw [if_pos h, umull, umlal, smull, smlal]
      simp only [multiplyLong_of_forbidden h, outcome_error, and_self]
    · rw [if_neg h]
      exact ⟨multiplyLongDone_of_allowed umull h (longResult_umull ..),
        multiplyLongDone_of_allowed umlal h (longResult_umlal ..),
        multiplyLongDone_of_allowed smull h (longResult_smull ..),
        multiplyLongDone_of_allowed smlal h (longResult_smlal ..)⟩

end Sys2Proof.Proofs
end

section
/-! PROOFS. The two swaps (42_arm_multiply_swap R460 to R462; 20_memory R168). -/

namespace Sys2Proof.Proofs

open Sys2Proof.Machine Sys2Proof.Statements

theorem swapForbidden_iff (rn rd rm : RegNum) : swapForbidden rn rd rm = true ↔
    rd = 15#4 ∨ rn = 15#4 ∨ rm = 15#4 ∨ rn = rm ∨ rn = rd := by
  simp only [swapForbidden, Bool.or_eq_true, decide_eq_true_eq, or_assoc]

/-- An exchange: the value `loaded` from `a`, then the store of `v` there, then the value to Rd. -/
def exchange (w : Width) (loaded : Except Refusal Word) (a v : Word) (rd : RegNum) (s : State) : Except Refusal State :=
  loaded.bind fun r => (s.store w a v).bind fun t => .ok (t.writeReg rd r).advance4

section
variable {c : Cond} {s : State} (hc : condPassed c s.cpsr = true) (rn rd rm : RegNum)
include hc

/-- SWP with its fixed field 0 (30_encoding R254). -/
theorem exec_armSwp : exec (.armSwp c rn rd 0#4 rm) s = outcome (refuseIf (swapForbidden rn rd rm) .swapOperands
    (exchange .word (s.loadRotated (s.armReg rn)) (s.armReg rn) (s.armReg rm) rd s)) := by
  rw [exec, execArmSwp, whenPassed_true c s _ hc]
  rfl

/-- SWPB with its fixed field 0 (30_encoding R254). -/
theorem exec_armSwpb : exec (.armSwpb c rn rd 0#4 rm) s = outcome (refuseIf (swapForbidden rn rd rm) .swapOperands
    (exchange .byte (s.load .byte (s.armReg rn)) (s.armReg rn) (s.armReg rm) rd s)) := by
  rw [exec, execArmSwpb, whenPassed_true c s _ hc]
  rfl

end

/-- An exchange whose store is admitted: the bus write, the register write after it, and the advance of the PC. -/
theorem exchange_of_admitted {w : Width} {a v : Word} {rd : RegNum} {s : State} {i : Instr} {r : Word}
    (run : exec i s = outcome (exchange w (.ok r) a v rd s)) (hrd : rd ≠ 15#4) (h : storeAdmitted s w a v) :
    ∃ t, exec i s = .next t ∧ t.armReg rd = r ∧ StoreEffect w a v s t ∧ t.cpsr = s.cpsr ∧ t.pc = s.pc + 4#32 ∧
      StoreFrame [rd] (storedAddresses w a) s t := by
  have body : exchange w (.ok r) a v rd s = .ok ((s.memWrite w a v).writeReg rd r).advance4 := by
    rw [exchange, store_of_admitted s w a v h]
    rfl
  obtain ⟨regs, cpsr, pc, kept⟩ := memWrite_keeps s w a v
  obtain ⟨hr, hcpsr, hpc, frame⟩ := writeReg_advance4 hrd (s.memWrite w a v) r
  have effect := (memWrite_effect s w a v h.1).of_keeps frame.rest
  have stored : KeepsRegistersBut [rd] s (s.memWrite w a v) := (KeepsRegistersBut.refl [rd] s).congr regs
  have registers := stored.trans frame.registers (congrArg Cpsr.mode cpsr)
  exact ⟨_, run.trans (congrArg outcome body), hr, effect, hcpsr.trans cpsr, hpc.trans (congrArg (· + 4#32) pc),
    .of registers kept (memWrite_outside s w a v) frame.rest⟩

/-- Settles O14: the exchange is a load, a store and a register write, behind the test of the operands. -/
theorem swapResults : Obligations.SwapResults := by
  unfold Obligations.SwapResults
  intro c rn rd rm s hc
  have word := exec_armSwp hc rn rd rm
  have byte := exec_armSwpb hc rn rd rm
  simp only [← swapForbidden_iff]
  by_cases h : swapForbidden rn rd rm = true
  · rw [if_pos h, word, byte, h]
    exact ⟨rfl, rfl⟩
  · have hrd : rd ≠ 15#4 := fun e => h ((swapForbidden_iff rn rd rm).mpr (.inl e))
    rw [Bool.eq_false_of_not_eq_true h, refuseIf_false] at word byte
    rw [if_neg h]
    refine ⟨fun hw => ?sram, fun ha => ?word, fun ha => ?byte⟩
    case sram =>
      rw [word, loadRotated_wide s _ ((sramWide_iff .word _).mpr hw)]
      rfl
    case word =>
      rw [loadRotated_of_admitted s _ ha.1, lowTwo_toNat] at word
      exact exchange_of_admitted word hrd ha
    case byte =>
      rw [load_of_admitted s .byte _ ha.1] at byte
      exact exchange_of_admitted byte hrd ha

end Sys2Proof.Proofs
end

section
/-! PROOFS. B, BL and BX (44_arm_branch_system R550 to R552). -/

namespace Sys2Proof.Proofs

open Sys2Proof.Machine Sys2Proof.Statements

/-! ### Branch and exchange (44_arm_branch_system R552, 45_thumb_alu R607) -/

/-- The mask of a branch clears bit 0. -/
theorem and_halfMask_eq_ofNat (v : Word) : v &&& 0xFFFFFFFE#32 = BitVec.ofNat 32 (v.toNat - v.toNat % 2) := by
  have masked : (v &&& 0xFFFFFFFE#32).toNat = v.toNat / 2 * 2 := alignAddr_half_toNat v
  apply BitVec.eq_of_toNat_eq
  rw [masked, BitVec.toNat_ofNat]
  omega

/-- Bits 1 and 0 equal to 10. -/
theorem exchangeUnaligned_eq (v : Word) : (!v.getLsbD 0 && v.getLsbD 1) = decide (v.toNat % 4 = 2) := by
  rw [bit0_eq, bit1_eq, ← decide_not, ← Bool.decide_and]
  exact decide_eq_decide.mpr (by omega)

theorem branchExchange_eq (s : State) (v : Word) : s.branchExchange v =
    refuseIf (decide (v.toNat % 4 = 2)) .unalignedArmPcWrite
      (.ok { s with cpsr := { s.cpsr with t := decide (v.toNat % 2 = 1) },
                    pc := BitVec.ofNat 32 (v.toNat - v.toNat % 2) }) := by
  rw [State.branchExchange, exchangeUnaligned_eq, bit0_eq, and_halfMask_eq_ofNat]

/-- An instruction that is a branch and exchange, in either processor state. -/
theorem exchangeDone_of_branchExchange {i : Instr} {v : Word} {s : State}
    (run : exec i s = outcome (s.branchExchange v)) : ExchangeDone i v s := by
  rw [branchExchange_eq] at run
  refine refused_or run decide_eq_true_iff fun _ done => ?_
  exact ⟨_, done, rfl, rfl, RegisterFrame.status s _ _ []⟩

/-! ### B and BL (44_arm_branch_system R550, R551) -/

/-- The target of B and BL as a number. -/
theorem armBranchTarget_eq (off24 : BitVec 24) (s : State) :
    armBranchTarget off24 s = BitVec.ofInt 32 (s.pc.toNat + 8 + 4 * off24.toInt) :=
  branchTarget_eq s.pc 8 off24 2 (by decide)

section
variable {c : Cond} {s : State} (hc : condPassed c s.cpsr = true)
include hc

theorem exec_armB (off24 : BitVec 24) :
    exec (.armB c off24) s = .next { s with pc := armBranchTarget off24 s } := by
  rw [exec, execArmB, whenPassed_true c s _ hc, outcome_ok]

theorem exec_armBl (off24 : BitVec 24) : exec (.armBl c off24) s =
    .next { (s.writeReg 14#4 (s.pc + 4#32)) with cpsr := s.cpsr, pc := armBranchTarget off24 s } := by
  rw [exec, execArmBl, whenPassed_true c s _ hc, outcome_ok]
  simp only [writeReg_cpsr]

/-- BX with its fixed field all ones (30_encoding R254). -/
theorem exec_armBx (rm : RegNum) :
    exec (.armBx c 0xFFF#12 rm) s = outcome (s.branchExchange (s.armReg rm)) := by
  rw [exec, execArmBx, whenPassed_true c s _ hc]
  rfl

end

/-- Settles O29: B and BL by their target, BX as the branch and exchange to Rm, which reads pc + 8 as r15. -/
theorem armBranches : Obligations.ArmBranches := by
  unfold Obligations.ArmBranches
  refine fun c s hc => ⟨fun off24 => ⟨?b, ?bl⟩, fun rm => ?bx⟩
  case b =>
    rw [← armBranchTarget_eq]
    exact ⟨_, exec_armB hc off24, rfl, rfl, RegisterFrame.status s s.cpsr _ []⟩
  case bl =>
    rw [← armBranchTarget_eq]
    exact ⟨_, exec_armBl hc off24, rfl, readReg_of_write s 14#4 _ _ _ _ (by decide) rfl, rfl,
      RegisterFrame.write s 14#4 _ _ _⟩
  case bx =>
    rw [← readReg_eq_armReg]
    exact exchangeDone_of_branchExchange (exec_armBx hc rm)

end Sys2Proof.Proofs
end

section
/-! PROOFS. SWI and the Undefined instructions take their exception (60_exceptions R871 to R874). -/

namespace Sys2Proof.Proofs

open Sys2Proof.Machine Sys2Proof.Statements

/-! ### Exception entry (60_exceptions R871, R872) -/

/-- Every exception is taken in a mode that has an SPSR (10_state R59). -/
theorem exceptionMode_spsr (l : Spsrs) (k : ExceptionKind) : ∃ v, l.get? k.mode = some v := by
  cases k <;> exact ⟨_, rfl⟩

theorem enterException_rest (s : State) (k : ExceptionKind) (ret : Word) :
    KeepsAllButCpu { s with spsrs := (s.enterException k ret).spsrs, userBankHazard := false }
      (s.enterException k ret) := by
  constructor
  · constructor <;> simp
  all_goals simp

theorem enterException_enters (s : State) (k : ExceptionKind) (ret : Word) :
    EntersException k.mode k.vector ret s (s.enterException k ret) where
  status := rfl
  pc := rfl
  link := (readRegMode_congr rfl _ _ _).trans (readRegMode_writeRegMode_same s k.mode 0#32 ret 14#4 (by decide))
  saved := (exceptionMode_spsr s.spsrs k).elim fun old h => spsrs_set_same s.spsrs _ _ old h
  otherSaved n hn := spsrs_set_ne s.spsrs _ n _ hn
  registers q hq := (reg_congr rfl q).trans (reg_writeRegMode_ne s k.mode 14#4 ret q hq)
  hazard := rfl
  rest := enterException_rest s k ret
  memory := (enterException_rest s k ret).memory

/-! ### Raised by an instruction (60_exceptions R873, R874) -/

/-- An instruction that raises an exception returns to the next instruction, `n` bytes on. -/
theorem entersException_of_raiseHere {i : Instr} {s : State} {k : ExceptionKind} {n : Word}
    (run : exec i s = .next (s.raiseHere k)) (length : s.instrLength = n) :
    ∃ t, exec i s = .next t ∧ EntersException k.mode k.vector (s.pc + n) s t :=
  ⟨_, run, length ▸ enterException_enters s k _⟩

theorem instrLength_arm {s : State} (h : s.cpsr.t = false) : s.instrLength = 4#32 :=
  if_neg (ne_true_of_eq_false h)

theorem instrLength_thumb {s : State} (h : s.cpsr.t = true) : s.instrLength = 2#32 := if_pos h

theorem exec_armSwi {c : Cond} {s : State} (hc : condPassed c s.cpsr = true) (comment : BitVec 24) :
    exec (.armSwi c comment) s = .next (s.raiseHere .swi) := by
  rw [exec, execArmSwi, whenPassed_true c s _ hc, outcome_ok]

theorem exec_armUndefined {c : Cond} {i : Instr} (h : ArmUndefined c i) {s : State}
    (hc : condPassed c s.cpsr = true) : exec i s = .next (s.raiseHere .undefined) := by
  have run : exec i s = whenPassed c s undefinedBody := by cases h <;> rfl
  exact run.trans (whenPassed_true c s _ hc)

theorem exec_thumbUndefined {i : Instr} (h : ThumbUndefined i) (s : State) :
    exec i s = .next (s.raiseHere .undefined) := by
  cases h <;> rfl

/-- Settles O31: each of these instructions is the entry of its exception, with the length of an instruction of its
processor state in the return address. -/
theorem softwareExceptions : Obligations.SoftwareExceptions := by
  unfold Obligations.SoftwareExceptions
  refine ⟨fun c s ht hc => ?arm, fun s ht => ?thumb⟩
  case arm =>
    have length := instrLength_arm ht
    exact ⟨fun comment => entersException_of_raiseHere (k := .swi) (exec_armSwi hc comment) length,
      fun _ h => entersException_of_raiseHere (k := .undefined) (exec_armUndefined h hc) length⟩
  case thumb =>
    have length := instrLength_thumb ht
    exact ⟨fun _ => entersException_of_raiseHere (k := .swi) rfl length,
      fun _ h => entersException_of_raiseHere (k := .undefined) (exec_thumbUndefined h s) length⟩

end Sys2Proof.Proofs
end

section
/-! PROOFS. The Thumb data-processing instructions (45_thumb_alu R580 to R606, R608 to R615). -/

namespace Sys2Proof.Proofs

open Sys2Proof.Machine Sys2Proof.Statements

/-! ### What an instruction that ends in a shared end has done (45_thumb_alu R620) -/

section
variable {i : Instr} {rd : LowReg} {d : RegNum} {s : State} {p : Cpsr}

/-- A register other than r15 written, then CPSR in the same mode and the PC. -/
theorem thumbDone_of_write {v : Word} (hd : d ≠ 15#4) (hm : p.mode = s.cpsr.mode)
    (run : exec i s = .next { (s.writeReg d v) with cpsr := p, pc := s.pc + 2#32 }) : ThumbDone i d v p s :=
  ⟨_, run, readReg_of_write s d v _ _ _ hd hm, rfl, rfl, RegisterFrame.write s d v _ _⟩

theorem thumbFlagsDone_of_status (run : exec i s = .next { s with cpsr := p, pc := s.pc + 2#32 }) :
    ThumbFlagsDone i p s :=
  ⟨_, run, rfl, rfl, RegisterFrame.status s p _ []⟩

theorem thumbShiftDone_of_shifted {r : Word × Bool} (run : exec i s = .next (thumbShifted rd r s)) :
    ThumbShiftDone i rd r s :=
  thumbDone_of_write (lowReg_ne_pc rd) rfl run

theorem thumbDone_of_logical {v : Word} (run : exec i s = .next (thumbLogical rd v s)) :
    ThumbDone i (lowReg rd) v (nzFlags s.cpsr v) s :=
  thumbDone_of_write (lowReg_ne_pc rd) rfl run

theorem thumbDone_of_moveTo {v : Word} (hd : d ≠ 15#4) (run : exec i s = .next (thumbMoveTo d v s)) :
    ThumbDone i d v s.cpsr s := by
  refine thumbDone_of_write hd rfl (run.trans ?_)
  simp only [thumbMoveTo, State.advance2, writeReg_cpsr, writeReg_pc]

section
variable {m : ArithmeticMeaning} {a b : Word} {r : AluResult}

/-- An arithmetic end whose result a meaning says. -/
theorem thumbArithmeticDone_of_arithmetic (hr : r = aluResultOf m a b s.cpsr.c)
    (run : exec i s = .next (thumbArithmetic rd r s)) : ThumbArithmeticDone i rd m a b s := by
  subst hr
  exact thumbDone_of_write (lowReg_ne_pc rd) rfl run

theorem thumbFlagsDone_of_compare (hr : r = aluResultOf m a b s.cpsr.c)
    (run : exec i s = .next (thumbCompare r s)) : ThumbFlagsDone i (m.flags s.cpsr a b) s := by
  subst hr
  exact thumbFlagsDone_of_status run

end

end

/-! ### Shifts (45_thumb_alu R580 to R582, R593 to R595, R598) -/

theorem shiftAmount_eq (rs : LowReg) (s : State) : shiftAmount rs s = (s.low rs).toNat % 256 := lowByte_toNat _

/-- Settles O34: each of the seven ends in the shifter's result; the amount in a register is its low byte. -/
theorem thumbShifts : Obligations.ThumbShifts := by
  unfold Obligations.ThumbShifts
  intro off5 rs rd s
  rw [← shiftAmount_eq]
  and_intros <;> exact thumbShiftDone_of_shifted rfl

/-! ### Additions, subtractions and comparisons (45_thumb_alu R583 to R586, R588 to R590, R596, R597, R600 to R602) -/

/-- An immediate that is not scaled. -/
theorem zextShift_zero {n : Nat} (v : BitVec n) : zextShift v 0 = BitVec.ofNat 32 v.toNat := by
  rw [zextShift, BitVec.shiftLeft_zero, BitVec.ofNat_toNat]

/-- Settles O35: each of the twelve ends in a primitive of R371, which is an addition or a subtraction of integers. -/
theorem thumbArithmetic : Obligations.ThumbArithmetic := by
  unfold Obligations.ThumbArithmetic
  intro rn rs rd off3 off8 s
  rw [← zextShift_zero off3, ← zextShift_zero off8]
  have sum (a b : Word) := aluAdd_eq_addition a b s.cpsr.c
  have difference (a b : Word) := aluSub_eq_subtraction a b s.cpsr.c
  refine ⟨?addReg, ?subReg, ?addImm3, ?subImm3, ?addImm8, ?subImm8, ?adc, ?sbc, ?neg, ?cmpImm, ?cmpReg, ?cmn⟩
  case addReg | addImm3 | addImm8 => exact thumbArithmeticDone_of_arithmetic (sum _ _) rfl
  case subReg | subImm3 | subImm8 | neg => exact thumbArithmeticDone_of_arithmetic (difference _ _) rfl
  case adc => exact thumbArithmeticDone_of_arithmetic (aluAdc_eq_addition id _ _ _) rfl
  case sbc => exact thumbArithmeticDone_of_arithmetic (aluSbc_eq_subtraction_not _ _ _) rfl
  case cmpImm | cmpReg => exact thumbFlagsDone_of_compare (difference _ _) rfl
  case cmn => exact thumbFlagsDone_of_compare (sum _ _) rfl

/-! ### Logical operations and MUL (45_thumb_alu R587, R591, R592, R599, R608, R609, R613, R614) -/

/-- Settles O36: six end in Rd with N and Z, TST in N and Z alone, and MUL in a product whose carry is a draw, behind
the test of its operands. -/
theorem thumbLogical : Obligations.ThumbLogical := by
  unfold Obligations.ThumbLogical
  intro rs rd off8 s
  rw [← zextShift_zero]
  refine ⟨thumbDone_of_logical rfl, thumbDone_of_logical rfl, thumbDone_of_logical rfl, thumbDone_of_logical rfl,
    thumbDone_of_logical rfl, thumbDone_of_logical rfl, thumbFlagsDone_of_status rfl,
    refused_or rfl decide_eq_true_iff fun _ run => ?mul⟩
  case mul =>
    rw [← word_mul_eq]
    exact ⟨Config.multiplyCarry s.draws, thumbDone_of_write (lowReg_ne_pc rd) rfl run⟩

/-! ### The high-register operations (45_thumb_alu R603 to R606) -/

theorem highBit_eq : ∀ r : RegNum, r.getLsbD 3 = decide (8 ≤ r.toNat) := by decide

section
variable {r d : RegNum}

theorem bothLow_iff : bothLow r d = true ↔ r.toNat < 8 ∧ d.toNat < 8 := by
  simp only [bothLow, highBit_eq, Bool.and_eq_true, Bool.not_eq_true', decide_eq_false_iff_not, not_le]

theorem bothLow_of_high (h : 8 ≤ r.toNat ∨ 8 ≤ d.toNat) : bothLow r d = false := by
  rw [Bool.eq_false_iff, Ne, bothLow_iff]
  omega

theorem exec_hi_of_low {i : Instr} {s : State} {body : Except Refusal State} (hr : r.toNat < 8) (hd : d.toNat < 8)
    (run : exec i s = outcome (refuseIf (bothLow r d) .hiRegOpLowRegisters body)) :
    exec i s = .refused .hiRegOpLowRegisters := by
  rw [run, bothLow_iff.mpr ⟨hr, hd⟩, refuseIf_true, outcome_error]

theorem exec_hi_of_high {i : Instr} {s t : State} (h : 8 ≤ r.toNat ∨ 8 ≤ d.toNat)
    (run : exec i s = outcome (refuseIf (bothLow r d) .hiRegOpLowRegisters (.ok t))) : exec i s = .next t := by
  rw [run, bothLow_of_high h, refuseIf_false, outcome_ok]

end

section
variable {i : Instr} {d : RegNum} {v : Word} {s : State}

/-- The write of r15 is a branch (45_thumb_alu R606). -/
theorem branched_of_hiWrite (run : exec i s = .next (thumbHiWrite 15#4 v s)) :
    ∃ t, exec i s = .next t ∧ t.pc = v &&& 0xFFFFFFFE#32 ∧ t.cpsr = s.cpsr ∧ RegisterFrame [] s t :=
  ⟨_, run, rfl, rfl, RegisterFrame.status s s.cpsr _ []⟩

theorem thumbDone_of_hiWrite (hd : d ≠ 15#4) (run : exec i s = .next (thumbHiWrite d v s)) :
    ThumbDone i d v s.cpsr s := by
  rw [thumbHiWrite, if_neg hd] at run
  exact thumbDone_of_moveTo hd run

end

/-! ### The SP and PC additions (45_thumb_alu R610 to R612, R615) -/

/-- An immediate in words. -/
theorem zextShift_two {n : Nat} (v : BitVec n) (h : n ≤ 30) : zextShift v 2 = BitVec.ofNat 32 (4 * v.toNat) :=
  zextShift_eq n 2 v (Nat.add_le_add_right h 2)

/-- Settles O37: two low registers stop at the test of the operands; the others end in flags, a register or the branch
of R606, and the SP and PC additions in a register. -/
theorem thumbHighRegisters : Obligations.ThumbHighRegisters := by
  unfold Obligations.ThumbHighRegisters
  intro s
  refine ⟨fun r d hr hd => ?low, fun r d h => ⟨?cmp, ?write⟩, fun rd word8 => ?fromBase, fun sword7 => ?toSp⟩
  case low => exact ⟨exec_hi_of_low hr hd rfl, exec_hi_of_low hr hd rfl, exec_hi_of_low hr hd rfl⟩
  case cmp => exact thumbFlagsDone_of_compare (aluSub_eq_subtraction _ _ _) (exec_hi_of_high h rfl)
  case write =>
    have add : exec (.thumbAddHi r d) s = .next (thumbHiWrite d (s.thumbReg d + s.thumbReg r) s) :=
      exec_hi_of_high h rfl
    have mov : exec (.thumbMovHi r d) s = .next (thumbHiWrite d (s.thumbReg r) s) := exec_hi_of_high h rfl
    by_cases hd : d = 15#4
    · have pc : s.thumbReg 15#4 = s.pc + 4#32 := readReg_pc_number s _
      subst hd
      rw [pc] at add
      rw [if_pos rfl]
      exact ⟨branched_of_hiWrite add, branched_of_hiWrite mov⟩
    · rw [if_neg hd]
      exact ⟨thumbDone_of_hiWrite hd add, thumbDone_of_hiWrite hd mov⟩
  case fromBase =>
    rw [← zextShift_two word8 (by decide)]
    exact ⟨thumbDone_of_moveTo (lowReg_ne_pc rd) rfl, thumbDone_of_moveTo (lowReg_ne_pc rd) rfl⟩
  case toSp =>
    rw [← zextShift_two sword7 (by decide)]
    exact ⟨thumbDone_of_moveTo (by decide) rfl, thumbDone_of_moveTo (by decide) rfl⟩

end Sys2Proof.Proofs
end

section
/-! PROOFS. The Thumb branches (46_thumb_mem_branch R670, R672, R680, R681; 45_thumb_alu R607). -/

namespace Sys2Proof.Proofs

open Sys2Proof.Machine Sys2Proof.Statements

/-! ### B and the conditional branches (46_thumb_mem_branch R670, R672) -/

/-- Each of the fourteen is the shared conditional branch with its own condition. -/
theorem exec_thumbConditional (soff8 : BitVec 8) (s : State) :
    ∀ x ∈ thumbConditionals, exec (x.2 soff8) s = .next (thumbCondBranch x.1 soff8 s) := by
  simp only [thumbConditionals, List.forall_mem_cons, List.not_mem_nil, false_implies, implies_true, and_true]
  and_intros <;> rfl

/-- The target of B and of a conditional branch as a number. -/
theorem thumbTarget_eq (pc : Word) {n : Nat} (off : BitVec n) (hn : 0 < n) :
    pc + 4#32 + (off ++ 0#1 : BitVec (n + 1)).signExtend 32 = BitVec.ofInt 32 (pc.toNat + 4 + 2 * off.toInt) :=
  branchTarget_eq pc 4 off 1 hn

theorem thumbCondBranch_eq (c : Cond) (soff8 : BitVec 8) (s : State) : thumbCondBranch c soff8 s =
    { s with
      pc := if condPassed c s.cpsr then BitVec.ofInt 32 (s.pc.toNat + 4 + 2 * soff8.toInt) else s.pc + 2#32 } := by
  rw [← thumbTarget_eq s.pc soff8 (by decide), thumbCondBranch]
  split <;> rfl

/-! ### BL in two halves (46_thumb_mem_branch R680, R681) -/

/-- What the first half leaves in r14, as a number. -/
theorem blHiLink_eq (pc : Word) (hi : BitVec 11) :
    pc + 4#32 + (hi.signExtend 32 <<< 12) = BitVec.ofInt 32 (pc.toNat + 4 + 4096 * hi.toInt) := by
  have scaled : hi.signExtend 32 <<< 12 = BitVec.ofInt 32 (4096 * hi.toInt) := by
    rw [BitVec.shiftLeft_eq_mul_twoPow, BitVec.mul_comm, BitVec.ofInt_mul]
    rfl
  have start : pc + 4#32 = BitVec.ofInt 32 (pc.toNat + 4) := by
    rw [BitVec.ofInt_add, BitVec.ofInt_natCast, BitVec.ofNat_toNat, BitVec.setWidth_eq]
    rfl
  rw [scaled, start, ← BitVec.ofInt_add]

theorem exec_thumbBlHi (hi : BitVec 11) (s : State) : exec (.thumbBlHi hi) s =
    .next { (s.writeReg 14#4 (BitVec.ofInt 32 (s.pc.toNat + 4 + 4096 * hi.toInt))) with
      cpsr := s.cpsr, pc := s.pc + 2#32 } := by
  rw [exec, execThumbBlHi, blHiLink_eq, State.advance2]
  simp only [writeReg_cpsr, writeReg_pc]

theorem exec_thumbBlLo (lo : BitVec 11) (s : State) : exec (.thumbBlLo lo) s =
    .next { (s.writeReg 14#4 ((s.pc + 2#32) ||| 1#32)) with
      cpsr := s.cpsr, pc := (s.thumbReg 14#4 + BitVec.ofNat 32 (2 * lo.toNat)) &&& 0xFFFFFFFE#32 } := by
  have offset : zextShift lo 1 = BitVec.ofNat 32 (2 * lo.toNat) := zextShift_eq 11 1 lo (by decide)
  rw [exec, execThumbBlLo, offset, State.branchThumb]
  simp only [writeReg_cpsr]

/-- The second half as R681 states it. -/
theorem thumbBlLo_done (lo : BitVec 11) (s : State) : ∃ t, exec (.thumbBlLo lo) s = .next t ∧
    t.pc = (s.thumbReg 14#4 + BitVec.ofNat 32 (2 * lo.toNat)) &&& 0xFFFFFFFE#32 ∧
    t.thumbReg 14#4 = (s.pc + 2#32) ||| 1#32 ∧ t.cpsr = s.cpsr ∧ RegisterFrame [14#4] s t :=
  ⟨_, exec_thumbBlLo lo s, rfl, readReg_of_write s 14#4 _ _ _ _ (by decide) rfl, rfl, RegisterFrame.write s 14#4 _ _ _⟩

/-- Bit 0 set in the link value of an even address. -/
theorem or_one_of_even {v : Word} (h : v.toNat % 2 = 0) : v ||| 1#32 = v + 1#32 := by
  refine (BitVec.add_eq_or_of_and_eq_zero v 1#32 (BitVec.eq_of_toNat_eq ?_)).symm
  rw [BitVec.toNat_and]
  exact (Nat.and_one_is_mod _).trans h

/-- The target of the two halves together is even when the first half is at an even address, so no bit of it is
cleared. -/
theorem blTarget_eq {pc : Word} (h : pc.toNat % 2 = 0) (hi lo : BitVec 11) :
    (BitVec.ofInt 32 (pc.toNat + 4 + 4096 * hi.toInt) + BitVec.ofNat 32 (2 * lo.toNat)) &&& 0xFFFFFFFE#32 =
      BitVec.ofInt 32 (pc.toNat + 4 + 4096 * hi.toInt + 2 * lo.toNat) := by
  have sum : BitVec.ofInt 32 (pc.toNat + 4 + 4096 * hi.toInt) + BitVec.ofNat 32 (2 * lo.toNat) =
      BitVec.ofInt 32 (pc.toNat + 4 + 4096 * hi.toInt + 2 * lo.toNat) := by
    rw [← BitVec.ofInt_natCast, ← BitVec.ofInt_add, Nat.cast_mul, Nat.cast_ofNat]
  rw [sum]
  refine alignAddr_half_of_even _ ?_
  rw [BitVec.toNat_ofInt]
  omega

/-- The return address of the two halves, with bit 0 set. -/
theorem blReturn_eq {pc : Word} (h : pc.toNat % 2 = 0) : (pc + 2#32 + 2#32) ||| 1#32 = pc + 5#32 := by
  have even : AlignedFor true (pc + 2#32 + 2#32) := AlignedFor.add_two (AlignedFor.add_two h)
  rw [or_one_of_even even, BitVec.add_assoc, BitVec.add_assoc]
  rfl

/-! ### BX (45_thumb_alu R607) -/

theorem thumbReg_eq_ite (s : State) (r : RegNum) :
    s.thumbReg r = if r = 15#4 then s.pc + 4#32 else s.thumbReg r := by
  split
  case isTrue h => rw [h, State.thumbReg, readReg_pc_number]
  case isFalse => rfl

theorem exec_thumbBx_fields {h1 : Bool} {sbz : BitVec 3} (h : h1 = true ∨ sbz ≠ 0#3) (r : RegNum) (s : State) :
    exec (.thumbBx h1 r sbz) s = .refused .thumbBxFields := by
  have violated : (h1 || decide (sbz ≠ 0#3)) = true := by simpa using h
  rw [exec, execThumbBx, violated, refuseIf_true, outcome_error]

/-- Settles O30: B and the conditional branches by their target, the halves of BL by the register and the PC they
write, and together at an even PC by the sum of their offsets; BX as the branch and exchange behind its field test. -/
theorem thumbBranches : Obligations.ThumbBranches := by
  unfold Obligations.ThumbBranches
  refine fun s => ⟨fun x hx soff8 => ?conditional, fun off11 => ?b, fun hi => ?blHi, fun lo => thumbBlLo_done lo s,
    fun r => ?bx, fun _ r _ h => exec_thumbBx_fields h r s⟩
  case conditional =>
    refine ⟨_, exec_thumbConditional soff8 s x hx, ?_⟩
    rw [thumbCondBranch_eq]
    exact ⟨rfl, rfl, RegisterFrame.status s s.cpsr _ []⟩
  case b =>
    rw [← thumbTarget_eq s.pc off11 (by decide)]
    exact ⟨_, rfl, rfl, rfl, RegisterFrame.status s s.cpsr _ []⟩
  case blHi =>
    have link := readReg_of_write s 14#4 (BitVec.ofInt 32 (s.pc.toNat + 4 + 4096 * hi.toInt)) (s.pc + 2#32 + 4#32)
      s.cpsr (s.pc + 2#32) (by decide) rfl
    refine ⟨_, exec_thumbBlHi hi s, link, rfl, rfl, RegisterFrame.write s 14#4 _ _ _, fun even lo => ?_⟩
    obtain ⟨u, done, target, ret, _⟩ := thumbBlLo_done lo _
    exact ⟨u, done, target.trans ((congrArg (fun v => (v + _) &&& _) link).trans (blTarget_eq even hi lo)),
      ret.trans (blReturn_eq even)⟩
  case bx =>
    rw [← thumbReg_eq_ite]
    exact exchangeDone_of_branchExchange rfl

end Sys2Proof.Proofs
end

section
/-! PROOFS. The Thumb single loads and stores (46_thumb_mem_branch R640 to R656; 43_arm_loadstore R495; 20_memory
R168). -/

namespace Sys2Proof.Proofs

open Sys2Proof.Machine Sys2Proof.Statements

/-! ### Values and refusals of one access -/

/-- The value of an extending load is the byte or the aligned halfword, extended (43_arm_loadstore R491, R493,
R494). -/
theorem extendLoaded_memRead {w : Width} (hw : w ≠ .word) (signed : Bool) {a : Word}
    (even : w = .half → a.toNat % 2 = 0) (s : State) :
    extendLoaded signed w (s.memRead w a) = loadedValue w signed a s := by
  match w, signed with
  | .word, _ => exact absurd rfl hw
  | .byte, false => rfl
  | .byte, true => exact congrArg (BitVec.signExtend 32) (lowByte_setWidth _)
  | .half, signed =>
    have aligned : s.memRead .half a = (s.readHalf a).setWidth 32 := by
      rw [State.memRead, alignAddr_half_of_even a (even rfl)]
    rw [aligned]
    cases signed
    · rfl
    · exact congrArg (BitVec.signExtend 32) (lowHalf_setWidth _)

theorem loadRotated_of_loadAdmitted {s : State} {a : Word} (h : loadAdmitted .word a) (signed : Bool) :
    s.loadRotated a = .ok (loadedValue .word signed a s) := by
  rw [loadRotated_of_admitted s a h, lowTwo_toNat, loadedValue]

/-- The test for an odd halfword address. -/
theorem oddHalfword_iff (w : Width) (a : Word) :
    (decide (w = .half) && oddAddress a) = true ↔ w = .half ∧ a.toNat % 2 = 1 := by
  rw [oddAddress_eq, Bool.and_eq_true, decide_eq_true_eq, decide_eq_true_eq]

theorem oddHalfword_of_even {w : Width} {a : Word} (even : w = .half → a.toNat % 2 = 0) :
    (decide (w = .half) && oddAddress a) = false := by
  rw [Bool.eq_false_iff, Ne, oddHalfword_iff]
  rintro ⟨hw, odd⟩
  have := even hw
  omega

/-! ### Single loads (46_thumb_mem_branch R640, R643, R644, R646 to R648, R650, R652, R654, R656) -/

/-- What a single load of a width at `a` does: the clauses of O38. -/
def ThumbLoadRule (i : Instr) (rd : LowReg) (w : Width) (signed : Bool) (a : Word) (s : State) : Prop :=
  (w = .half → a.toNat % 2 = 1 → exec i s = .refused .unalignedHalfword) ∧
  ((w = .half → a.toNat % 2 = 0) → WideSram w a → exec i s = .refused .sramWideAccess) ∧
  ((w = .half → a.toNat % 2 = 0) → loadAdmitted w a → ThumbDone i (lowReg rd) (loadedValue w signed a s) s.cpsr s)

section
variable {i : Instr} {rd : LowReg} {a : Word} {s : State}

theorem thumbLoadRule_of_word {signed : Bool} (run : exec i s = outcome (thumbLoadWord a rd s)) :
    ThumbLoadRule i rd .word signed a s := by
  refine ⟨nofun, fun _ wide => ?wide, fun _ admitted => ?admitted⟩
  case wide =>
    rw [run, thumbLoadWord, loadRotated_wide s a ((sramWide_iff_wideSram _ a).mpr wide)]
    rfl
  case admitted =>
    rw [thumbLoadWord, loadRotated_of_loadAdmitted admitted signed] at run
    exact thumbDone_of_moveTo (lowReg_ne_pc rd) run

theorem thumbLoadRule_of_extending {w : Width} {signed : Bool} (hw : w ≠ .word)
    (run : exec i s = outcome (thumbLoad w signed a rd s)) : ThumbLoadRule i rd w signed a s := by
  rw [thumbLoad] at run
  refine ⟨fun half odd => ?odd, fun even wide => ?wide, fun even admitted => ?admitted⟩
  case odd => rw [run, (oddHalfword_iff w a).mpr ⟨half, odd⟩, refuseIf_true, outcome_error]
  case wide =>
    rw [run, oddHalfword_of_even even, load_wide s w a ((sramWide_iff_wideSram w a).mpr wide)]
    rfl
  case admitted =>
    rw [oddHalfword_of_even even, load_of_admitted s w a admitted, refuseIf_false] at run
    rw [← extendLoaded_memRead hw signed even s]
    exact thumbDone_of_moveTo (lowReg_ne_pc rd) run

end

/-- An immediate in halfwords. -/
theorem zextShift_one {n : Nat} (v : BitVec n) (h : n ≤ 31) : zextShift v 1 = BitVec.ofNat 32 (2 * v.toNat) :=
  zextShift_eq n 1 v (Nat.add_le_add_right h 1)

/-- Settles O38: each form is the rotated word load or the extending load at its address. -/
theorem thumbLoads : Obligations.ThumbLoads := by
  unfold Obligations.ThumbLoads
  intro s rd i w signed a form
  show ThumbLoadRule i rd w signed a s
  cases form with
  | wordReg => exact thumbLoadRule_of_word rfl
  | pc off | sp off | wordImm off =>
    rw [← zextShift_two off (by decide)]
    exact thumbLoadRule_of_word rfl
  | byteReg | halfReg | signedByte | signedHalf => exact thumbLoadRule_of_extending (by decide) rfl
  | byteImm off =>
    rw [← zextShift_zero off]
    exact thumbLoadRule_of_extending (by decide) rfl
  | halfImm off =>
    rw [← zextShift_one off (by decide)]
    exact thumbLoadRule_of_extending (by decide) rfl

/-! ### Single stores (46_thumb_mem_branch R641, R642, R645, R649, R651, R653, R655) -/

section
variable {i : Instr} {w : Width} {a v : Word} {s : State}

theorem refused_of_thumbStore_wide (run : exec i s = outcome (thumbStore w a v s)) (wide : WideSram w a) :
    exec i s = .refused .sramWideAccess := by
  rw [run, thumbStore, store_wide s w a v ((sramWide_iff_wideSram w a).mpr wide)]
  rfl

/-- An admitted store is the bus write, then the advance of the PC. -/
theorem done_of_thumbStore_admitted (run : exec i s = outcome (thumbStore w a v s)) (admitted : storeAdmitted s w a v) :
    ∃ t, exec i s = .next t ∧ StoreEffect w a v s t ∧ t.cpsr = s.cpsr ∧ t.pc = s.pc + 2#32 ∧
      StoreFrame [] (storedAddresses w a) s t := by
  obtain ⟨regs, cpsr, pc, kept⟩ := memWrite_keeps s w a v
  have advanced : KeepsAllButCpu (s.memWrite w a v) (s.memWrite w a v).advance2 :=
    (RegisterFrame.status _ (s.memWrite w a v).cpsr _ []).rest
  rw [thumbStore, store_of_admitted s w a v admitted] at run
  exact ⟨_, run, (memWrite_effect s w a v admitted.1).of_keeps advanced, cpsr, congrArg (· + 2#32) pc,
    .of ((KeepsRegistersBut.refl [] s).congr regs) kept (memWrite_outside s w a v) advanced⟩

end

/-- What a single store of `v` at `a` does: the clauses of O39. -/
def ThumbStoreRule (i : Instr) (w : Width) (a v : Word) (s : State) : Prop :=
  (w = .half → a.toNat % 2 = 1 → exec i s = .refused .unalignedHalfword) ∧
  ((w = .half → a.toNat % 2 = 0) → WideSram w a → exec i s = .refused .sramWideAccess) ∧
  ((w = .half → a.toNat % 2 = 0) → storeAdmitted s w a v →
    ∃ t, exec i s = .next t ∧ StoreEffect w a v s t ∧ t.cpsr = s.cpsr ∧ t.pc = s.pc + 2#32 ∧
      StoreFrame [] (storedAddresses w a) s t)

section
variable {i : Instr} {a v : Word} {s : State}

theorem thumbStoreRule_of_store {w : Width} (hw : w ≠ .half) (run : exec i s = outcome (thumbStore w a v s)) :
    ThumbStoreRule i w a v s :=
  ⟨fun half => absurd half hw, fun _ => refused_of_thumbStore_wide run, fun _ => done_of_thumbStore_admitted run⟩

theorem thumbStoreRule_of_storeHalf (run : exec i s = outcome (thumbStoreHalf a v s)) :
    ThumbStoreRule i .half a v s := by
  rw [thumbStoreHalf, oddAddress_eq] at run
  have evenRun (even : a.toNat % 2 = 0) : exec i s = outcome (thumbStore .half a v s) := by
    rw [run, decide_eq_false (by omega), refuseIf_false]
  refine ⟨fun _ odd => ?odd, fun even => refused_of_thumbStore_wide (evenRun (even rfl)),
    fun even => done_of_thumbStore_admitted (evenRun (even rfl))⟩
  case odd => rw [run, decide_eq_true odd, refuseIf_true, outcome_error]

end

/-- Settles O39: each form is the store at its address, the halfword forms behind the test of the address. -/
theorem thumbStores : Obligations.ThumbStores := by
  unfold Obligations.ThumbStores
  intro s rd i w a form
  show ThumbStoreRule i w a (s.low rd) s
  cases form with
  | wordReg | byteReg => exact thumbStoreRule_of_store (by decide) rfl
  | sp off | wordImm off =>
    rw [← zextShift_two off (by decide)]
    exact thumbStoreRule_of_store (by decide) rfl
  | byteImm off =>
    rw [← zextShift_zero off]
    exact thumbStoreRule_of_store (by decide) rfl
  | halfReg => exact thumbStoreRule_of_storeHalf rfl
  | halfImm off =>
    rw [← zextShift_one off (by decide)]
    exact thumbStoreRule_of_storeHalf rfl

end Sys2Proof.Proofs
end

section
/-! PROOFS. The lists and slots of the Thumb block transfers, and what PUSH and STMIA store (46_thumb_mem_branch R657 to
R661; 20_memory R168). -/

namespace Sys2Proof.Proofs

open Sys2Proof.Machine Sys2Proof.Statements

/-! ### Slots -/

/-- The statements count the words of a transfer, the model adds 4 from slot to slot. -/
theorem wordSlots_eq (start : Word) (l : List RegNum) : wordSlots start l = blockSlots start l := by
  have fromIndex (k : Nat) : (l.zipIdx k).map (fun x => (x.1, (start + BitVec.ofNat 32 (4 * x.2)) &&& 0xFFFFFFFC#32)) =
      blockSlots (start + BitVec.ofNat 32 (4 * k)) l := by
    induction l generalizing k with
    | nil => rfl
    | cons i l ih =>
      have next : start + BitVec.ofNat 32 (4 * (k + 1)) = start + BitVec.ofNat 32 (4 * k) + 4#32 := by
        rw [Nat.mul_add, BitVec.ofNat_add, BitVec.add_assoc]
      rw [List.zipIdx_cons, List.map_cons, ih, next, blockSlots]
  rw [wordSlots, fromIndex 0, Nat.mul_zero, BitVec.add_zero]

theorem wordSlots_length (start : Word) (l : List RegNum) : (wordSlots start l).length = l.length := by
  rw [wordSlots, List.length_map, List.length_zipIdx]

/-! ### The list of PUSH and POP (46_thumb_mem_branch R657 to R660) -/

/-- The 16-bit list of PUSH and POP: the low registers and, when asked for, the bits of `extra`. -/
def stackBits (low : BitVec 8) (extra : BitVec 16) (withExtra : Bool) : BitVec 16 :=
  if withExtra then lowList low ||| extra else lowList low

theorem lowList_getLsbD (low : BitVec 8) (k : Nat) : (lowList low).getLsbD k = low.getLsbD k := by
  rw [lowList, BitVec.getLsbD_setWidth, Bool.and_eq_right_iff_imp, decide_eq_true_eq]
  exact fun h => lt_trans (BitVec.lt_of_getLsbD h) (by decide)

/-- High registers follow the low ones. -/
theorem listedRegs_or (low : BitVec 8) (high : BitVec 16) (h : high.setWidth 8 = 0#8) :
    listedRegs (lowList low ||| high) = listedRegs (lowList low) ++ listedRegs high := by
  have highClear : ∀ i ∈ allRegs.take 8, high.getLsbD i.toNat = false := fun i hi => by
    have bit := congrArg (BitVec.getLsbD · i.toNat) h
    have small : i.toNat < 8 := (by decide : ∀ i ∈ allRegs.take 8, i.toNat < 8) i hi
    simpa [small] using bit
  have lowClear : ∀ i ∈ allRegs.drop 8, (lowList low).getLsbD i.toNat = false := fun i hi => by
    rw [lowList_getLsbD]
    exact BitVec.getLsbD_of_ge low _ ((by decide : ∀ i ∈ allRegs.drop 8, 8 ≤ i.toNat) i hi)
  have parts (r : BitVec 16) : listedRegs r = (allRegs.take 8).filter (fun i => r.getLsbD i.toNat) ++
      (allRegs.drop 8).filter (fun i => r.getLsbD i.toNat) := by
    rw [← List.filter_append, List.take_append_drop, listedRegs]
  have lowPart : listedRegs (lowList low) = (allRegs.take 8).filter (fun i => (lowList low).getLsbD i.toNat) := by
    rw [parts, List.filter_eq_nil_iff.mpr fun i hi => ne_true_of_eq_false (lowClear i hi), List.append_nil]
  have highPart : listedRegs high = (allRegs.drop 8).filter (fun i => high.getLsbD i.toNat) := by
    rw [parts, List.filter_eq_nil_iff.mpr fun i hi => ne_true_of_eq_false (highClear i hi), List.nil_append]
  rw [parts, lowPart, highPart]
  congr 1
  · exact List.filter_congr fun i hi => by rw [BitVec.getLsbD_or, highClear i hi, Bool.or_false]
  · exact List.filter_congr fun i hi => by rw [BitVec.getLsbD_or, lowClear i hi, Bool.false_or]

theorem stackList_false (low : BitVec 8) (r : RegNum) : stackList low r false = listedRegs (lowList low) :=
  List.append_nil _

theorem stackList_eq_listedRegs (low : BitVec 8) {r : RegNum} {extra : BitVec 16} (withExtra : Bool)
    (h : extra.setWidth 8 = 0#8) (hr : listedRegs extra = [r]) :
    stackList low r withExtra = listedRegs (stackBits low extra withExtra) := by
  cases withExtra
  · exact stackList_false low r
  · rw [stackBits, if_pos rfl, listedRegs_or low extra h, hr]
    rfl

theorem lowList_eq_zero_iff (low : BitVec 8) : lowList low = 0#16 ↔ low = 0#8 := by
  refine ⟨fun h => BitVec.eq_of_getLsbD_eq fun k _ => ?_, fun h => h ▸ rfl⟩
  rw [← lowList_getLsbD, h, BitVec.getLsbD_zero, BitVec.getLsbD_zero]

theorem stackBits_eq_zero_iff (low : BitVec 8) {extra : BitVec 16} (withExtra : Bool) (h : extra ≠ 0#16) :
    stackBits low extra withExtra = 0#16 ↔ low = 0#8 ∧ withExtra = false := by
  cases withExtra
  · simpa [stackBits] using lowList_eq_zero_iff low
  · simp [stackBits, BitVec.or_eq_zero_iff, h]

theorem stackList_push (low : BitVec 8) (withLr : Bool) :
    stackList low 14#4 withLr = listedRegs (stackBits low 0x4000#16 withLr) :=
  stackList_eq_listedRegs low withLr (by decide) (by decide)

theorem exec_pushInstr (withLr : Bool) (low : BitVec 8) (s : State) :
    exec (pushInstr withLr low) s = outcome (pushBody (stackBits low 0x4000#16 withLr) s) := by
  cases withLr <;> rfl

/-! ### The base of STMIA (46_thumb_mem_branch R661) -/

theorem lowReg_toNat : ∀ r : LowReg, (lowReg r).toNat = r.toNat := by decide

/-- The first register of a list is the one of the lowest set bit. -/
theorem head?_listedRegs_iff (rlist : BitVec 16) (i : RegNum) : (listedRegs rlist).head? = some i ↔
    rlist.getLsbD i.toNat = true ∧ ∀ j : RegNum, j.toNat < i.toNat → rlist.getLsbD j.toNat = false := by
  have sorted := listedRegs_sorted rlist
  simp only [← mem_listedRegs, ← Bool.not_eq_true]
  cases h : listedRegs rlist with
  | nil => simp
  | cons head rest =>
    rw [h] at sorted
    obtain ⟨below, _⟩ := List.pairwise_cons.mp sorted
    rw [List.head?_cons, Option.some.injEq]
    constructor
    · rintro rfl
      refine ⟨List.mem_cons_self, fun j lower hj => ?_⟩
      rcases List.mem_cons.mp hj with rfl | hj
      · exact lt_irrefl _ lower
      · exact lt_asymm lower (below j hj)
    · rintro ⟨hi, lowest⟩
      rcases List.mem_cons.mp hi with rfl | hi
      · rfl
      · exact absurd List.mem_cons_self (lowest head (below i hi))

theorem baseNotFirst_lowList_iff (low : BitVec 8) (rb : LowReg) : baseNotFirst (lowList low) (lowReg rb) = true ↔
    low.getLsbD rb.toNat = true ∧ ∃ k < rb.toNat, low.getLsbD k = true := by
  rw [baseNotFirst, Bool.and_eq_true, decide_eq_true_eq, inList, Ne, head?_listedRegs_iff]
  simp only [lowList_getLsbD, lowReg_toNat]
  refine and_congr_right fun listed => ?_
  simp only [listed, true_and, not_forall, Bool.not_eq_false]
  constructor
  · rintro ⟨j, below, hj⟩
    exact ⟨j.toNat, below, hj⟩
  · rintro ⟨k, below, hk⟩
    have small : (BitVec.ofNat 4 k).toNat = k := Nat.mod_eq_of_lt (by have := rb.isLt; omega)
    exact ⟨BitVec.ofNat 4 k, by rwa [small], by rwa [small]⟩

/-! ### A block store, then the base (46_thumb_mem_branch R657, R658, R661) -/

theorem storeAdmitted_of_clean {s : State} {w : Width} {a : Word} (h : CleanStore s w a) (v : Word) :
    storeAdmitted s w a v :=
  ⟨(sramWide_eq_false_iff w a).mpr h.1, (hitsWindow_eq_false_iff _ _ w a v).mpr h.2⟩

theorem storeAll_of_stopsAtSram {s : State} {l : List (RegNum × Word)} (h : StopsAtSram s l) (value : RegNum → Word) :
    s.storeAll (l.map fun x => (x.2, value x.1)) = .error .sramWideAccess := by
  obtain ⟨pre, x, post, rfl, clean, wide⟩ := h
  rw [List.map_append, List.map_cons]
  refine storeAll_wide s _ _ x.2 _ (List.forall_mem_map.mpr fun y hy => ?_) ((sramWide_iff_wideSram _ _).mpr wide)
  exact storeAdmitted_of_clean (clean y hy) _

/-- The slots of a block transfer are aligned words apart from one another, so each store reads back. -/
theorem writeWords_slots_effect (s : State) (start : Word) {regs : List RegNum} (hl : regs.length ≤ 16)
    (value : RegNum → Word) (plain : ∀ x ∈ blockSlots start regs, sramWide .word x.2 = false) :
    WordsEffect ((blockSlots start regs).map fun x => (x.2, value x.1)) s
      (s.writeWords ((blockSlots start regs).map fun x => (x.2, value x.1))) :=
  writeWords_effect s _ (List.forall_mem_map.mpr plain) (List.forall_mem_map.mpr (blockSlots_aligned start regs))
    (List.pairwise_map.mpr (blockSlots_apart start regs hl))

theorem writeReg_advance2 {d : RegNum} (hd : d ≠ 15#4) (s : State) (v : Word) :
    (s.writeReg d v).advance2.thumbReg d = v ∧ (s.writeReg d v).advance2.cpsr = s.cpsr ∧
    (s.writeReg d v).advance2.pc = s.pc + 2#32 ∧ RegisterFrame [d] s (s.writeReg d v).advance2 := by
  have whole : (s.writeReg d v).advance2 = { (s.writeReg d v) with cpsr := s.cpsr, pc := s.pc + 2#32 } := by
    simp [State.advance2]
  rw [whole]
  exact ⟨readReg_of_write s d v _ _ _ hd rfl, rfl, rfl, RegisterFrame.write s d v _ _⟩

section
variable {i : Instr} {s : State} {value : RegNum → Word} {rn : RegNum} {base : Word}

/-- A block store, then the base written, then the advance of the PC. -/
def storeThenBase (l : List (RegNum × Word)) (value : RegNum → Word) (rn : RegNum) (base : Word) (s : State) :
    Except Refusal State :=
  (s.storeAll (l.map fun x => (x.2, value x.1))).bind fun t => .ok (t.writeReg rn base).advance2

theorem refused_of_storeThenBase {l : List (RegNum × Word)} (run : exec i s = outcome (storeThenBase l value rn base s))
    (h : StopsAtSram s l) : exec i s = .refused .sramWideAccess := by
  rw [run, storeThenBase, storeAll_of_stopsAtSram h]
  rfl

theorem storeFrame_writeWords_writeReg (s : State) (words : List (Word × Word)) {rn : RegNum} (hrn : rn ≠ 15#4)
    (base : Word) : ∃ t, t = ((s.writeWords words).writeReg rn base).advance2 ∧ t.thumbReg rn = base ∧
      t.cpsr = s.cpsr ∧ t.pc = s.pc + 2#32 ∧ KeepsAllButCpu (s.writeWords words) t ∧
      StoreFrame [rn] (wordsStored words) s t := by
  obtain ⟨hregs, cpsr, pc, kept⟩ := writeWords_keeps s words
  obtain ⟨hbase, hcpsr, hpc, frame⟩ := writeReg_advance2 hrn (s.writeWords words) base
  have registers := ((KeepsRegistersBut.refl [rn] s).congr hregs).trans frame.registers (congrArg Cpsr.mode cpsr)
  exact ⟨_, rfl, hbase, hcpsr.trans cpsr, hpc.trans (congrArg (· + 2#32) pc), frame.rest,
    .of registers kept (writeWords_outside s words) frame.rest⟩

theorem done_of_storeThenBase {start : Word} {regs : List RegNum} (hl : regs.length ≤ 16) (hrn : rn ≠ 15#4)
    (run : exec i s = outcome (storeThenBase (blockSlots start regs) value rn base s))
    (admitted : ∀ x ∈ blockSlots start regs, storeAdmitted s .word x.2 (value x.1)) :
    ∃ t, exec i s = .next t ∧ WordsEffect ((blockSlots start regs).map fun x => (x.2, value x.1)) s t ∧
      t.thumbReg rn = base ∧ t.cpsr = s.cpsr ∧ t.pc = s.pc + 2#32 ∧
      StoreFrame [rn] (slotAddresses (blockSlots start regs)) s t := by
  have effect := writeWords_slots_effect s start hl value fun x hx => (admitted x hx).1
  obtain ⟨t, ht, hbase, hcpsr, hpc, rest, frame⟩ := storeFrame_writeWords_writeReg s
    ((blockSlots start regs).map fun x => (x.2, value x.1)) hrn base
  have stored := storeAll_of_admitted s ((blockSlots start regs).map fun x => (x.2, value x.1)) fun y hy => by
    obtain ⟨x, hx, rfl⟩ := List.mem_map.mp hy
    exact admitted x hx
  have done : exec i s = .next t := by
    rw [run, storeThenBase, stored, ht]
    rfl
  rw [wordsStored, List.flatMap_map] at frame
  exact ⟨t, done, effect.of_keeps rest, hbase, hcpsr, hpc, frame⟩

end

/-- Settles O40: behind the tests of the list, PUSH and STMIA are a block store from the slots' own start, then the
base. -/
theorem thumbStoreMultiple : Obligations.ThumbStoreMultiple := by
  unfold Obligations.ThumbStoreMultiple
  refine fun s low => ⟨fun withLr => ?push, fun rb => ?stmia⟩
  case push =>
    refine refused_or (exec_pushInstr withLr low s)
      (decide_eq_true_iff.trans (stackBits_eq_zero_iff low withLr (by decide))) fun _ run l sp hl hsp => ?_
    rw [stackList_push] at hl hsp
    rw [wordSlots_eq] at hl
    subst hl hsp
    exact ⟨refused_of_storeThenBase run, done_of_storeThenBase (listedRegs_length _) (by decide) run⟩
  case stmia =>
    refine refused_or rfl decide_eq_true_iff fun _ run => ?_
    refine refused_or run (baseNotFirst_lowList_iff low rb) fun _ run l hl => ?_
    rw [stackList_false] at hl
    have size : l.length = (listedRegs (lowList low)).length := by rw [hl, wordSlots_length]
    rw [size]
    rw [wordSlots_eq] at hl
    subst hl
    exact ⟨refused_of_storeThenBase run, done_of_storeThenBase (listedRegs_length _) (lowReg_ne_pc rb) run⟩

end Sys2Proof.Proofs
end

section
/-! PROOFS. POP and LDMIA: what a block load leaves in the registers and the PC (46_thumb_mem_branch R659, R660, R662;
20_memory R168). -/

namespace Sys2Proof.Proofs

open Sys2Proof.Machine Sys2Proof.Statements

/-! ### Registers loaded from a block (46_thumb_mem_branch R659, R660, R662) -/

theorem loadAll_of_wideSlot (s : State) {l : List (RegNum × Word)} (h : ∃ x ∈ l, WideSram .word x.2) :
    s.loadAll (l.map fun x => x.2) = .error .sramWideAccess := by
  obtain ⟨x, hx, wide⟩ := h
  exact loadAll_wide s _ ⟨x.2, List.mem_map_of_mem hx, (sramWide_iff_wideSram _ _).mpr wide⟩

/-- The registers of some slots with the words at their addresses. -/
def loadedSlots (s : State) (l : List (RegNum × Word)) : List (RegNum × Word) :=
  l.map fun x => (x.1, s.memRead .word x.2)

theorem loadAll_of_slots {s : State} {l : List (RegNum × Word)} (h : ∀ x ∈ l, loadAdmitted .word x.2) :
    s.loadAll (l.map fun x => x.2) = .ok (l.map fun x => s.memRead .word x.2) := by
  rw [loadAll_of_admitted s _ (List.forall_mem_map.mpr h), List.map_map]
  rfl

theorem register_of_slot {start : Word} {regs : List RegNum} {x : RegNum × Word} (hx : x ∈ blockSlots start regs) :
    x.1 ∈ regs := by
  rw [← blockSlots_map_fst start regs]
  exact List.mem_map_of_mem hx

theorem loadedSlots_map_fst (s : State) (start : Word) (regs : List RegNum) :
    (loadedSlots s (blockSlots start regs)).map (·.1) = regs := by
  rw [loadedSlots, List.map_map]
  exact blockSlots_map_fst start regs

/-- r15 is the last register of a list, so its word is the last one loaded. -/
theorem loadedPc_of_slots {start : Word} {rlist : BitVec 16} {x : RegNum × Word}
    (hx : x ∈ blockSlots start (listedRegs rlist)) (h15 : x.1 = 15#4) (f : Word → Word) :
    loadedPc ((blockSlots start (listedRegs rlist)).map fun y => f y.2) = f x.2 := by
  have sorted := listedRegs_sorted rlist
  rw [← blockSlots_map_fst start (listedRegs rlist), List.pairwise_map] at sorted
  obtain ⟨pre, post, split⟩ := List.append_of_mem hx
  rw [split] at sorted ⊢
  have last : post = [] := by
    refine List.eq_nil_iff_forall_not_mem.mpr fun y hy => ?_
    obtain ⟨_, tail, _⟩ := List.pairwise_append.mp sorted
    have above := (List.pairwise_cons.mp tail).1 y hy
    rw [h15] at above
    exact absurd y.1.isLt (not_lt.mpr above)
  rw [last, List.map_append, loadedPc, List.getLastD_eq_getLast?]
  simp

/-! ### Several registers written, then the PC -/

theorem thumbReg_withPc (s : State) (pc : Word) {i : RegNum} (hi : i ≠ 15#4) :
    State.thumbReg { s with pc := pc } i = s.thumbReg i :=
  (readReg_irrelevant _ _ (s.pc + 4#32) i hi).trans (readReg_status s pc (p := s.cpsr) rfl _)

section
variable (s : State) (l : List (RegNum × Word))

theorem thumbReg_writeListed (hn : (l.map (·.1)).Nodup) {x : RegNum × Word} (hx : x ∈ l) (h15 : x.1 ≠ 15#4) :
    (s.writeListed s.cpsr.mode l).thumbReg x.1 = x.2 := by
  rw [State.thumbReg, State.readReg, writeListed_cpsr]
  exact readRegMode_writeListed s _ l _ hn x hx h15

theorem thumbReg_writeListed_ne {i : RegNum} (h : ∀ x ∈ l, x.1 ≠ i) :
    (s.writeListed s.cpsr.mode l).thumbReg i = s.thumbReg i := by
  rw [State.thumbReg, State.readReg, writeListed_cpsr, writeListed_pc]
  exact readRegMode_writeListed_ne s _ l _ i h

theorem registerFrame_writeListed {written : List RegNum} (h : ∀ x ∈ l, x.1 ∈ written) (pc : Word) :
    RegisterFrame written s { (s.writeListed s.cpsr.mode l) with pc := pc } := by
  have registers : KeepsRegistersBut written s (s.writeListed s.cpsr.mode l) := fun p hp =>
    reg_writeListed_ne s _ l p fun x hx => hp x.1 (h x hx)
  obtain ⟨_, _, kept⟩ := writeListed_keeps s s.cpsr.mode l
  have branched := RegisterFrame.status (s.writeListed s.cpsr.mode l) (s.writeListed s.cpsr.mode l).cpsr pc []
  exact .of (registers.congr rfl) (kept.trans branched.rest)

/-- A register written after the listed ones is one more of them. -/
theorem writeReg_writeListed (i : RegNum) (v : Word) :
    (s.writeListed s.cpsr.mode l).writeReg i v = s.writeListed s.cpsr.mode (l ++ [(i, v)]) := by
  rw [State.writeReg, writeListed_cpsr]
  generalize s.cpsr.mode = m
  induction l generalizing s with
  | nil => rfl
  | cons x l ih => exact ih _

end

/-! ### POP (46_thumb_mem_branch R659, R660) -/

theorem stackList_pop (low : BitVec 8) (withPc : Bool) :
    stackList low 15#4 withPc = listedRegs (stackBits low 0x8000#16 withPc) :=
  stackList_eq_listedRegs low withPc (by decide) (by decide)

theorem exec_popInstr (withPc : Bool) (low : BitVec 8) (s : State) :
    exec (popInstr withPc low) s = outcome (popBody (stackBits low 0x8000#16 withPc) s) := by
  cases withPc <;> rfl

theorem stackBits_getLsbD (low : BitVec 8) (extra : BitVec 16) (withExtra : Bool) {k : Nat} (hk : 8 ≤ k) :
    (stackBits low extra withExtra).getLsbD k = (withExtra && extra.getLsbD k) := by
  have absent : (lowList low).getLsbD k = false := (lowList_getLsbD low k).trans (BitVec.getLsbD_of_ge low k hk)
  cases withExtra
  · exact absent
  · rw [stackBits, if_pos rfl, BitVec.getLsbD_or, absent, Bool.true_and, Bool.false_or]

/-- What a POP of admitted words leaves: the listed registers, then r13, and the PC from the last word or the next
instruction. -/
def popped (list : BitVec 16) (s : State) : State :=
  { s.writeListed s.cpsr.mode (loadedSlots s (blockSlots (s.thumbReg 13#4) (listedRegs list)) ++
      [(13#4, s.thumbReg 13#4 + listBytes list)]) with
    pc := if inList list 15#4 then
        loadedPc ((blockSlots (s.thumbReg 13#4) (listedRegs list)).map fun x => s.memRead .word x.2) &&& 0xFFFFFFFE#32
      else s.pc + 2#32 }

section
variable {list : BitVec 16} {s : State}

theorem popBody_of_wideSlot (hne : list ≠ 0#16)
    (h : ∃ x ∈ blockSlots (s.thumbReg 13#4) (listedRegs list), WideSram .word x.2) :
    popBody list s = .error .sramWideAccess := by
  rw [popBody, decide_eq_false hne, refuseIf_false, listAddresses, loadAll_of_wideSlot s h]
  rfl

theorem popBody_of_admitted (hne : list ≠ 0#16)
    (h : ∀ x ∈ blockSlots (s.thumbReg 13#4) (listedRegs list), loadAdmitted .word x.2) :
    popBody list s = .ok (popped list s) := by
  rw [popBody, decide_eq_false hne, refuseIf_false, listAddresses, loadAll_of_slots h, Except.bind, zip_slots]
  simp only [writeReg_writeListed]
  rw [popped, loadedSlots]
  cases inList list 15#4
  · simp only [Bool.false_eq_true, if_false, State.advance2, writeListed_pc]
  · rfl

/-- The registers of a POP: each listed one but r15 its word, and r13 the base above the words. -/
theorem thumbReg_popped (h13 : 13#4 ∉ listedRegs list) {x : RegNum × Word}
    (hx : x ∈ loadedSlots s (blockSlots (s.thumbReg 13#4) (listedRegs list)) ++
      [(13#4, s.thumbReg 13#4 + listBytes list)]) (h15 : x.1 ≠ 15#4) : (popped list s).thumbReg x.1 = x.2 := by
  rw [popped, thumbReg_withPc _ _ h15]
  refine thumbReg_writeListed s _ ?_ hx h15
  rw [List.map_append, loadedSlots_map_fst]
  refine List.nodup_append.mpr ⟨listedRegs_nodup list, List.nodup_singleton _, fun i hi _ hj e => h13 ?_⟩
  have same : i = 13#4 := e.trans (List.mem_singleton.mp hj)
  exact same ▸ hi

theorem popped_done (h13 : 13#4 ∉ listedRegs list) (x : RegNum × Word)
    (hx : x ∈ blockSlots (s.thumbReg 13#4) (listedRegs list)) :
    if x.1 = 15#4 then (popped list s).pc = s.memRead .word x.2 &&& 0xFFFFFFFE#32
      else (popped list s).thumbReg x.1 = s.memRead .word x.2 := by
  split
  case isTrue h15 =>
    have listed : inList list 15#4 = true := by
      rw [inList, ← mem_listedRegs, ← h15]
      exact register_of_slot hx
    rw [← loadedPc_of_slots hx h15 (s.memRead .word)]
    exact if_pos listed
  case isFalse h15 =>
    exact thumbReg_popped h13 (List.mem_append_left _ (List.mem_map_of_mem hx)) h15

theorem popped_frame : RegisterFrame (13#4 :: listedRegs list) s (popped list s) := by
  refine registerFrame_writeListed s _ (fun x hx => ?_) _
  have number := List.mem_map_of_mem (f := (·.1)) hx
  rw [List.map_append, loadedSlots_map_fst] at number
  simpa [or_comm] using number

end

/-! ### LDMIA (46_thumb_mem_branch R662) -/

theorem pc_not_listed (low : BitVec 8) : 15#4 ∉ listedRegs (lowList low) := by
  rw [mem_listedRegs, lowList_getLsbD, BitVec.getLsbD_of_ge low _ (by decide)]
  decide

/-- What an LDMIA of admitted words leaves: the base moved, then the listed registers, so a listed base keeps its
word. -/
def loadedUp (rb : LowReg) (list : BitVec 16) (s : State) : State :=
  { s.writeListed s.cpsr.mode ((lowReg rb, s.low rb + listBytes list) ::
      loadedSlots s (blockSlots (s.low rb) (listedRegs list))) with pc := s.pc + 2#32 }

section
variable {rb : LowReg} {low : BitVec 8} {s : State}

theorem ldmiaBody_of_wideSlot (hne : low ≠ 0#8)
    (h : ∃ x ∈ blockSlots (s.low rb) (listedRegs (lowList low)), WideSram .word x.2) :
    ldmiaBody rb low s = .error .sramWideAccess := by
  rw [ldmiaBody, decide_eq_false hne, refuseIf_false, listAddresses, loadAll_of_wideSlot s h]
  rfl

theorem ldmiaBody_of_admitted (hne : low ≠ 0#8)
    (h : ∀ x ∈ blockSlots (s.low rb) (listedRegs (lowList low)), loadAdmitted .word x.2) :
    ldmiaBody rb low s = .ok (loadedUp rb (lowList low) s) := by
  rw [ldmiaBody, decide_eq_false hne, refuseIf_false, listAddresses, loadAll_of_slots h, Except.bind, zip_slots,
    State.advance2, writeListed_pc, State.setLow, writeReg_pc]
  rfl

end

section
variable {rb : LowReg} {list : BitVec 16} {s : State}

theorem thumbReg_loadedUp {x : RegNum × Word} (hx : x ∈ blockSlots (s.low rb) (listedRegs list)) (h15 : x.1 ≠ 15#4) :
    (loadedUp rb list s).thumbReg x.1 = s.memRead .word x.2 := by
  rw [loadedUp, thumbReg_withPc _ _ h15]
  have loaded := thumbReg_writeListed (s.setLow rb (s.low rb + listBytes list))
    (loadedSlots s (blockSlots (s.low rb) (listedRegs list))) (by rw [loadedSlots_map_fst]; exact listedRegs_nodup list)
    (List.mem_map_of_mem hx) h15
  rwa [State.setLow, writeReg_cpsr] at loaded

theorem low_loadedUp (h : lowReg rb ∉ listedRegs list) : (loadedUp rb list s).low rb = s.low rb + listBytes list := by
  have kept := thumbReg_writeListed_ne (s.setLow rb (s.low rb + listBytes list))
    (loadedSlots s (blockSlots (s.low rb) (listedRegs list))) (i := lowReg rb) fun x hx e => h (by
      rw [← loadedSlots_map_fst s (s.low rb) (listedRegs list), ← e]
      exact List.mem_map_of_mem hx)
  rw [State.setLow, writeReg_cpsr] at kept
  rw [State.low, loadedUp, thumbReg_withPc _ _ (lowReg_ne_pc rb)]
  exact kept.trans (readReg_writeReg_same s _ _ _ (lowReg_ne_pc rb))

theorem loadedUp_frame : RegisterFrame (lowReg rb :: listedRegs list) s (loadedUp rb list s) := by
  refine registerFrame_writeListed s _ (fun x hx => ?_) _
  have number := List.mem_map_of_mem (f := (·.1)) hx
  rwa [List.map_cons, loadedSlots_map_fst] at number

end

/-- Settles O41: behind the test of the list, POP and LDMIA are block loads from the slots' own start; what they leave
is said by `popped` and `loadedUp`. -/
theorem thumbLoadMultiple : Obligations.ThumbLoadMultiple := by
  unfold Obligations.ThumbLoadMultiple
  refine fun s low => ⟨fun withPc => ?pop, fun rb => ?ldmia⟩
  case pop =>
    have run := exec_popInstr withPc low s
    have empty := stackBits_eq_zero_iff low (extra := 0x8000#16) withPc (by decide)
    refine refused_or run (decide_eq_true_iff.trans empty) fun nonempty _ l hl => ?_
    have hne := mt empty.mp nonempty
    have h13 : 13#4 ∉ listedRegs (stackBits low 0x8000#16 withPc) := by
      rw [mem_listedRegs, stackBits_getLsbD _ _ _ (by decide)]
      simp
    have size : l.length = (listedRegs (stackBits low 0x8000#16 withPc)).length := by
      rw [hl, wordSlots_length, stackList_pop]
    rw [stackList_pop, wordSlots_eq] at hl
    rw [size, stackList_pop]
    subst hl
    refine ⟨fun wide => ?wide, fun admitted => ⟨popped _ s, ?done, popped_done h13, ?base, writeListed_cpsr _ _ _,
      fun hpc => if_neg ?pc, popped_frame⟩⟩
    case wide => rw [run, popBody_of_wideSlot hne wide, outcome_error]
    case done => rw [run, popBody_of_admitted hne admitted, outcome_ok]
    case base => exact thumbReg_popped h13 (x := (13#4, _)) (List.mem_append_right _ List.mem_cons_self) (by simp)
    case pc =>
      rw [inList, stackBits_getLsbD _ _ _ (by decide), hpc, Bool.false_and]
      decide
  case ldmia =>
    refine refused_or rfl decide_eq_true_iff fun hne _ l hl => ?_
    have size : l.length = (listedRegs (lowList low)).length := by rw [hl, wordSlots_length, stackList_false]
    rw [stackList_false, wordSlots_eq] at hl
    rw [size, stackList_false]
    subst hl
    have run : exec (.thumbLdmia rb low) s = outcome (ldmiaBody rb low s) := rfl
    refine ⟨fun wide => ?wide, fun admitted => ⟨loadedUp rb (lowList low) s, ?done, fun x hx => ?value,
      fun unlisted => ?base, writeListed_cpsr _ _ _, rfl, loadedUp_frame⟩⟩
    case wide => rw [run, ldmiaBody_of_wideSlot hne wide, outcome_error]
    case done => rw [run, ldmiaBody_of_admitted hne admitted, outcome_ok]
    case value => exact thumbReg_loadedUp hx fun h15 => pc_not_listed low (h15 ▸ register_of_slot hx)
    case base =>
      refine low_loadedUp ?_
      rw [mem_listedRegs, lowList_getLsbD, lowReg_toNat, unlisted]
      decide

end Sys2Proof.Proofs
end
